-- ==== Sys2Proof/Word.lean ====
section
/-! DEFINITION. The word types of the block (spec/00_scope.md R5, R6; spec/20_memory.md R43; spec/30_encoding.md R61).
Only what the spec treats as bits is a bit vector: register bytes, command words, core indices.  Microseconds and sample
fractions are exact rationals (R149), rates and statistics are natural numbers (R23, R24). -/

namespace Sys2Proof

/-- `DATA_W` = 8 (R5): a shadow register, a latch, a timer's `counter` and `preset`, the status byte. -/
abbrev Byte := BitVec 8

/-- The command word `CW` (R61): 32 bits, bit 31 most significant. -/
abbrev Word := BitVec 32

/-- `CORE_IDX_W` = 9 (R5): the index forwarded to the external core (R43). -/
abbrev CoreIdx := BitVec 9

end Sys2Proof
end

