-- ==== Sys2Proof/Config.lean ====
section
/-! DEFINITION. The implementation parameters of spec/00_scope.md R5: what one device is built with, fixed while it runs.
The spec gives the switches a default and an exact alternative, and asks that a claim for every permitted implementation
hold under both values (R144, U1, U8), so the model carries the parameters as data and never fixes them by a constant. -/

namespace Sys2Proof

/-- `NTIMERS` = 2 (R5): timer 1 and timer 2. -/
inductive TimerId where
  | one
  | two
deriving DecidableEq, Repr

/-- The parameters of R5 that the spec leaves to the implementation ("argument" and "switch" rows).
`STAT_W` is no field: R5 gives it the value "unbounded (natural numbers)". -/
structure Config where
  /-- `INIT_SAMPLE_RATE` (R5, R23): the argument of construction, frames per second. -/
  initSampleRate : Nat
  /-- `TICK_US` (R5, R141): microseconds in one shell tick; any positive rational. -/
  tickUs : Rat
  /-- `PRESET_INIT[1]` (R5, R15). -/
  presetInit1 : Byte
  /-- `PRESET_INIT[2]` (R5, R15). -/
  presetInit2 : Byte
  /-- `REG_WRITE_LOADS_PRESET` (R5, R97): a write to `T1_REG`/`T2_REG` writes `preset` too. -/
  regWriteLoadsPreset : Bool
  /-- `SOFT_RESET_CLEARS_TIMERS` (R5, R144): RESET and RESETR clear `counter` and `elapsed` of both timers. -/
  softResetClearsTimers : Bool
deriving DecidableEq, Repr

/-- `PRESET_INIT[i]` (R5). -/
def Config.presetInit (c : Config) : TimerId → Byte
  | .one => c.presetInit1
  | .two => c.presetInit2

/-- R5 asks of a parameter set only that `TICK_US` is positive.
DESIGN CHOICE (log entry 16): with any other `TICK_US`, which no device has, RUN performs no shell tick. -/
abbrev Config.valid (c : Config) : Prop := 0 < c.tickUs

/-- The defaults of R5: `TICK_US` = 80, `PRESET_INIT` = 0, both switches false.
DESIGN CHOICE (log entry 2): `INIT_SAMPLE_RATE` is an argument of construction with no default in the spec; 48 000 here,
the rate most vectors of spec/95_test_vectors.md use. -/
def Config.standard : Config where
  initSampleRate := 48000
  tickUs := 80
  presetInit1 := 0
  presetInit2 := 0
  regWriteLoadsPreset := false
  softResetClearsTimers := false

/-- `RATE[i]` (R5, R14): microseconds per count step, a constant of the hardware.  The assignment of 80 to timer 1 is the
spec's decision D8. -/
def Config.timerRate : TimerId → Nat
  | .one => 80
  | .two => 320

end Sys2Proof
end

