-- ==== Sys2Proof/Syntax.lean ====
section
/-! DEFINITION. The nine host operations of spec/30_encoding.md R60, one constructor for each row of spec/opcode_table.json.
They are the ABSTRACT operations with their typed operands, which R60 and D1 make normative; the 32-bit command word is one
transport of them (Decode.lean). -/

namespace Sys2Proof

/-- The two register files (R20, R41, R42): P = Primary, S = Secondary. -/
inductive RegFile where
  | primary
  | secondary
deriving DecidableEq, Repr

/-- A host operation (R60).  The operands stand in the order of spec/opcode_table.json. -/
inductive Instr where
  /-- WADDR (R120): write the address port of a file. -/
  | waddr (file : RegFile) (addr : Byte)
  /-- WDATA (R121): write the data port of a file, to the latched register. -/
  | wdata (file : RegFile) (buffered : Bool) (data : Byte)
  /-- WREG (R123): write a named register. -/
  | wreg (file : RegFile) (buffered : Bool) (reg : Byte) (value : Byte)
  /-- RREG (R122): read a register through the shadow. -/
  | rreg (file : RegFile) (reg : Byte)
  /-- RSTAT (R128): read the status port. -/
  | rstat
  /-- RUN (R140): advance time by an exact rational number of microseconds. -/
  | run (elapsedUsec : Rat)
  /-- RESET (R143): `reset` with the option absent. -/
  | reset
  /-- RESETR (R143): `reset` with a new sample rate, in frames per second. -/
  | resetr (newSampleRate : Nat)
  /-- STATS (R145): read the statistics record. -/
  | stats
deriving DecidableEq, Repr

end Sys2Proof
end

