-- ==== Sys2Proof/WellFormed.lean ====
section
/-! DEFINITION. Two checks on an operation's operands: that they lie in the domain the spec gives the operation, and that they
fit the fields of the command word. -/

namespace Sys2Proof

/-- The domain of the operands (R60, D13): RUN's elapsed time is a non-negative rational; every other operand is in its
domain by its type. -/
def Instr.inDomain : Instr → Bool
  | .run t => decide (0 ≤ t)
  | .waddr _ _ | .wdata _ _ _ | .wreg _ _ _ _ | .rreg _ _ | .rstat | .reset | .resetr _ | .stats => true

/-- The operands fit the command word (R74): RUN with `elapsed_usec * 256` a natural number below 2^28, RESETR with a rate
below 2^28, and every format-R and format-N operation. -/
def Instr.wf : Instr → Bool
  | .run t => decide ((t * 256).den = 1) && decide (0 ≤ t) && decide ((t * 256).num < 2 ^ 28)
  | .resetr hz => decide (hz < 2 ^ 28)
  | .waddr _ _ | .wdata _ _ _ | .wreg _ _ _ _ | .rreg _ _ | .rstat | .reset | .stats => true

end Sys2Proof
end

