-- ==== Sys2Proof/Decode.lean ====
section
/-! DEFINITION. The command word (spec/30_encoding.md R61 to R74): its fields, the opcode map, the decoder, and after it the
encoder.  The layout is the spec's own (D2), numbered with bit 0 least significant. -/

namespace Sys2Proof

/-! ### Fields (R62, R63) -/

/-- `OP` = `CW[31:28]`. -/
def opField (w : Word) : BitVec 4 := w.extractLsb' 28 4

/-- `F` = `CW[27]`. -/
def fField (w : Word) : Bool := w.getLsbD 27

/-- `B` = `CW[26]`. -/
def bField (w : Word) : Bool := w.getLsbD 26

/-- `Z` = `CW[25:16]`. -/
def zField (w : Word) : BitVec 10 := w.extractLsb' 16 10

/-- `REG` = `CW[15:8]`. -/
def regField (w : Word) : Byte := w.extractLsb' 8 8

/-- `DATA` = `CW[7:0]`. -/
def dataField (w : Word) : Byte := w.extractLsb' 0 8

/-- `IMM28` = `CW[27:0]`. -/
def immField (w : Word) : BitVec 28 := w.extractLsb' 0 28

/-! ### The opcode map (R65) -/

/-- The nine rows of the opcode map, by mnemonic. -/
inductive Opcode where
  | waddr | wdata | wreg | rreg | rstat | run | reset | resetr | stats
deriving DecidableEq, Repr

/-- Every row of the map, in the table's order. -/
def opcodeRows : List Opcode := [.waddr, .wdata, .wreg, .rreg, .rstat, .run, .reset, .resetr, .stats]

/-- The row's mnemonic in spec/opcode_table.json. -/
def Opcode.mnemonic : Opcode → String
  | .waddr => "WADDR"
  | .wdata => "WDATA"
  | .wreg => "WREG"
  | .rreg => "RREG"
  | .rstat => "RSTAT"
  | .run => "RUN"
  | .reset => "RESET"
  | .resetr => "RESETR"
  | .stats => "STATS"

/-- The row's `OP` value. -/
def Opcode.code : Opcode → BitVec 4
  | .waddr => 0x1#4
  | .wdata => 0x2#4
  | .wreg => 0x3#4
  | .rreg => 0x4#4
  | .rstat => 0x5#4
  | .run => 0x6#4
  | .reset => 0x7#4
  | .resetr => 0x8#4
  | .stats => 0x9#4

/-- The row's `match` (R65). -/
def Opcode.matchBits : Opcode → Word
  | .waddr => 0x10000000#32
  | .wdata => 0x20000000#32
  | .wreg => 0x30000000#32
  | .rreg => 0x40000000#32
  | .rstat => 0x50000000#32
  | .run => 0x60000000#32
  | .reset => 0x70000000#32
  | .resetr => 0x80000000#32
  | .stats => 0x90000000#32

/-- The row's `mask` (R65). -/
def Opcode.maskBits : Opcode → Word
  | .waddr => 0xF7FF00FF#32
  | .wdata => 0xF3FFFF00#32
  | .wreg => 0xF3FF0000#32
  | .rreg => 0xF7FF00FF#32
  | .rstat => 0xFFFFFFFF#32
  | .run => 0xF0000000#32
  | .reset => 0xFFFFFFFF#32
  | .resetr => 0xF0000000#32
  | .stats => 0xFFFFFFFF#32

/-- `W` encodes the row iff `W and mask = match` (R65). -/
def Opcode.matchesWord (o : Opcode) (w : Word) : Bool := decide (w &&& o.maskBits = o.matchBits)

/-- The row an `OP` value selects; none for the reserved values 0x0 and 0xA..0xF (R65). -/
def opcodeOfCode (op : BitVec 4) : Option Opcode :=
  match op.toNat with
  | 1 => some .waddr
  | 2 => some .wdata
  | 3 => some .wreg
  | 4 => some .rreg
  | 5 => some .rstat
  | 6 => some .run
  | 7 => some .reset
  | 8 => some .resetr
  | 9 => some .stats
  | _ => none

/-! ### Operand assembly (R66, R67, R68) -/

/-- `file = P if F = 0 else S` (R66). -/
def fileOfBit (f : Bool) : RegFile := if f then .secondary else .primary

/-- `elapsed_usec = IMM28 / 256`, an exact rational (R67). -/
def usecOfImm (imm : BitVec 28) : Rat := mkRat imm.toNat 256

/-- The operands of a word that encodes the row (R66 to R68). -/
def Opcode.operation (w : Word) : Opcode → Instr
  | .waddr => .waddr (fileOfBit (fField w)) (regField w)
  | .wdata => .wdata (fileOfBit (fField w)) (bField w) (dataField w)
  | .wreg => .wreg (fileOfBit (fField w)) (bField w) (regField w) (dataField w)
  | .rreg => .rreg (fileOfBit (fField w)) (regField w)
  | .rstat => .rstat
  | .run => .run (usecOfImm (immField w))
  | .reset => .reset
  | .resetr => .resetr (immField w).toNat
  | .stats => .stats

/-! ### The decoder (R71, R74) -/

/-- Why a command word is illegal (R71), in the order of the tests of R74.
DESIGN CHOICE (log entry 18): the spec gives an illegal word no reason code; this one only names the refusal. -/
inductive Illegal where
  /-- `OP` in {0x0, 0xA..0xF}. -/
  | reservedOpcode (op : BitVec 4)
  /-- A must-be-zero bit of the row the opcode selects is 1. -/
  | mustBeZero (row : Opcode)
deriving DecidableEq, Repr

/-- The decode algorithm of R74, total on all 2^32 words. -/
def decode (w : Word) : Except Illegal Instr :=
  match opcodeOfCode (opField w) with
  | none => .error (.reservedOpcode (opField w))
  | some row => if row.matchesWord w then .ok (row.operation w) else .error (.mustBeZero row)

/-- The operation a word decodes to, none where it is illegal. -/
def decodeOption (w : Word) : Option Instr :=
  match decode w with
  | .ok i => some i
  | .error _ => none

/-- A command word from the low `nbits` bits of a number, every bit above them 0. -/
def wordOfTable (nbits w : Nat) : Word := BitVec.ofNat 32 (w % 2 ^ nbits)

/-- The instruction the decoder reads from a word numbered as spec/opcode_table.json numbers it.  A command word is a
32-bit number and never stored in bytes (R45), so the table's number is the word itself. -/
def decodeTableWord (nbits w : Nat) : Option Instr := decodeOption (wordOfTable nbits w)

/-! ### The encoder (R74: "place the operand fields, zero elsewhere") -/

/-- `F` of a file operand (R62). -/
def bitOfFile : RegFile → Bool
  | .primary => false
  | .secondary => true

/-- Format R (R62): `OP`, `F`, `B`, `Z` = 0, `REG`, `DATA`. -/
def formatR (op : BitVec 4) (f b : Bool) (reg data : Byte) : Word :=
  op ++ BitVec.ofBool f ++ BitVec.ofBool b ++ 0#10 ++ reg ++ data

/-- Format I (R63): `OP`, `IMM28`. -/
def formatI (op : BitVec 4) (imm : BitVec 28) : Word := op ++ imm

/-- Format N (R64): `OP`, 28 zero bits. -/
def formatN (op : BitVec 4) : Word := op ++ 0#28

/-- `IMM28 = t * 256` (R67, R140), for a `t` that fits. -/
def immOfUsec (t : Rat) : BitVec 28 := BitVec.ofNat 28 (t * 256).num.toNat

/-- The command word of an operation whose operands fit (R74). -/
def encode : Instr → Word
  | .waddr f addr => formatR 0x1#4 (bitOfFile f) false addr 0
  | .wdata f b data => formatR 0x2#4 (bitOfFile f) b 0 data
  | .wreg f b reg value => formatR 0x3#4 (bitOfFile f) b reg value
  | .rreg f reg => formatR 0x4#4 (bitOfFile f) false reg 0
  | .rstat => formatN 0x5#4
  | .run t => formatI 0x6#4 (immOfUsec t)
  | .reset => formatN 0x7#4
  | .resetr hz => formatI 0x8#4 (BitVec.ofNat 28 hz)
  | .stats => formatN 0x9#4

end Sys2Proof
end

