-- ==== Sys2Proof/Machine/State.lean ====
section
/-! DEFINITION. The state of the block (spec/10_state.md R10, and every rule R11 to R27 it lists), the host's side of the
interface (the commands it has issued and the response it gets), the reasons a step can stop, and the state after power-on
(spec/70_reset_and_hazards.md R181). -/

namespace Sys2Proof.Machine

/-- One register file of the shadow (R20, R21) as a list of (address, byte) pairs: addresses strictly rising, below 256, and no
entry equal to what an unlisted address reads as (`Memory.wf` in Ops.lean). -/
abbrev Memory := List Host.Cell

/-- The timer record (R11), exactly its seven attributes. -/
structure Timer where
  /-- R12. -/
  enabled : Bool
  /-- R13. -/
  masked : Bool
  /-- R14: microseconds per count step; no operation writes it. -/
  rate : Nat
  /-- R15: what `counter` is reloaded with on overflow. -/
  preset : Byte
  /-- R16: the 8-bit up-counter. -/
  counter : Byte
  /-- R17: the prescaler accumulator, exact microseconds. -/
  acc : Rat
  /-- R18: the sticky overflow flag. -/
  elapsed : Bool
deriving DecidableEq, Repr

/-- The statistics record (R24): four unbounded naturals. -/
structure Stats where
  dataWrites : Nat
  addrWrites : Nat
  statusReads : Nat
  samplesGenerated : Nat
deriving DecidableEq, Repr

/-- All four statistics at 0 (R24, R143). -/
def Stats.zero : Stats where
  dataWrites := 0
  addrWrites := 0
  statusReads := 0
  samplesGenerated := 0

/-- An event the block sends the external core (R8, R52). -/
inductive CoreEvent where
  /-- `CoreReset(rate)`. -/
  | coreReset (rate : Nat)
  /-- `CoreWrite(idx, val)`: the immediate entry point. -/
  | coreWrite (idx : CoreIdx) (val : Byte)
  /-- `CoreWriteBuffered(idx, val)`: the buffered entry point. -/
  | coreWriteBuffered (idx : CoreIdx) (val : Byte)
deriving DecidableEq, Repr

/-- What an operation returns on the response port (R70). -/
inductive Response where
  | none
  | byte (b : Byte)
  | count (n : Nat)
  | stats (dataWrites addrWrites statusReads samplesGenerated : Nat)
deriving DecidableEq, Repr

/-- One command the host has issued.  R60 and D1: the abstract operation is the normative interface, the command word one
transport of it, so the host may issue either. -/
inductive Command where
  /-- A 32-bit command word (R61). -/
  | word (w : Word)
  /-- An abstract operation (R60), whose operands need not fit a word. -/
  | op (i : Instr)
deriving DecidableEq, Repr

/-- The state.  `cfg`, `response` and `pending` are the MODEL's own fields (log entries 1, 3 and 4): the parameters of R5, the
response port of R70, and the commands the host has issued and the block has not yet executed (R31).  All the others are the
components of R10. -/
structure State where
  /-- The parameters this device was built with (R5); no step changes them. -/
  cfg : Config
  /-- `T[1]` (R11). -/
  timer1 : Timer
  /-- `T[2]` (R11). -/
  timer2 : Timer
  /-- `shadow[P]` (R20). -/
  shadowP : Memory
  /-- `shadow[S]` (R20). -/
  shadowS : Memory
  /-- `latch[P]` (R22). -/
  latchP : Byte
  /-- `latch[S]` (R22). -/
  latchS : Byte
  /-- `sample_rate` (R23), frames per second. -/
  sampleRate : Nat
  /-- `stats` (R24). -/
  stats : Stats
  /-- `sample_acc` (R25), frames. -/
  sampleAcc : Rat
  /-- `usec_acc` (R26), microseconds. -/
  usecAcc : Rat
  /-- `core_log` (R27), oldest event first. -/
  coreLog : List CoreEvent
  /-- The response of the latest operation (R70). -/
  response : Response
  /-- The commands the host has issued, the next one first (R31, R51). -/
  pending : List Command
deriving DecidableEq, Repr

/-- Why a step stops with a fault: for no reason.  R162: "*Fault*: none exists in the block"; R160: "No operation in scope
raises anything"; R161: "A model of this spec's scope has no constructor for them". -/
inductive Fault where
deriving DecidableEq, Repr

/-- Why a step refuses (R162). -/
inductive Refusal where
  /-- Raised by an arm of `exec` whose instruction has no meaning yet.  Safe: the run stops. -/
  | notModelled (mnemonic : String)
  /-- Raised by `step` on a command word that encodes no operation (R71, D3).  Safe: the run stops where the block changes
  nothing and responds nothing. -/
  | illegalWord (w : Word) (why : Illegal)
  /-- Raised by RUN with a negative operand, which lies outside its domain (R140, R162, D13).  Safe: the run stops. -/
  | negativeElapsed (t : Rat)
deriving DecidableEq, Repr

/-- Timer `i` as built (R181): every flag and count 0, `preset` from the configuration, the fixed rate. -/
def Timer.powerOn (c : Config) (i : TimerId) : Timer where
  enabled := false
  masked := false
  rate := Config.timerRate i
  preset := c.presetInit i
  counter := 0
  acc := 0
  elapsed := false

/-- The power-on procedure of R181 with the parameters `c`; nothing issued yet. -/
def State.powerOn (c : Config) : State where
  cfg := c
  timer1 := Timer.powerOn c .one
  timer2 := Timer.powerOn c .two
  shadowP := []
  shadowS := []
  latchP := 0
  latchS := 0
  sampleRate := c.initSampleRate
  stats := Stats.zero
  sampleAcc := 0
  usecAcc := 0
  coreLog := [.coreReset c.initSampleRate]
  response := .none
  pending := []

/-- The state after power-on with the default parameters of R5. -/
def State.reset : State := State.powerOn Config.standard

end Sys2Proof.Machine
end

