-- ==== Sys2Proof/Machine/Flags.lean ====
section
/-! DEFINITION. The bits the block computes with: the fields of the control byte (spec/10_state.md R30, spec/30_encoding.md
R69) and the status byte made of the timers' flags (R32, spec/40_timer.md R93, spec/42_port_ops.md R128). -/

namespace Sys2Proof.Machine

/-- `ACK` = bit 7 of the control byte (R30). -/
def ctrlAck (v : Byte) : Bool := v.getLsbD 7

/-- `M1` = bit 6 (R30). -/
def ctrlMask1 (v : Byte) : Bool := v.getLsbD 6

/-- `M2` = bit 5 (R30). -/
def ctrlMask2 (v : Byte) : Bool := v.getLsbD 5

/-- `ST2` = bit 1 (R30). -/
def ctrlStart2 (v : Byte) : Bool := v.getLsbD 1

/-- `ST1` = bit 0 (R30). -/
def ctrlStart1 (v : Byte) : Bool := v.getLsbD 0

/-- `is_elapsed` (R93): the flag as seen through the mask. -/
def Timer.isElapsed (t : Timer) : Bool := t.elapsed && !t.masked

/-- The status byte of two visible flags (R32, R128): bit 7 IRQ, bit 6 timer 1, bit 5 timer 2, bits 4:0 zero. -/
def statusOf (v1 v2 : Bool) : Byte :=
  BitVec.ofBool (v1 || v2) ++ BitVec.ofBool v1 ++ BitVec.ofBool v2 ++ 0#5

/-- The status register (R32), computed from timer state and never stored. -/
def State.statusByte (s : State) : Byte := statusOf s.timer1.isElapsed s.timer2.isElapsed

end Sys2Proof.Machine
end

