-- ==== Sys2Proof/Machine/Operands.lean ====
section
/-! DEFINITION. Where a register access goes: the two addressing modes (spec/42_port_ops.md R129), the classes of a write
(R124), the fixed addresses (spec/20_memory.md R49) and the core index (R43). -/

namespace Sys2Proof.Machine

/-- The address latch of a file (R22). -/
def State.latch (s : State) : RegFile → Byte
  | .primary => s.latchP
  | .secondary => s.latchS

/-- A location of the shadow: a file and an 8-bit address (R129). -/
abbrev Loc := RegFile × Byte

/-- Direct addressing (R129), for WREG and RREG. -/
def directLoc (f : RegFile) (reg : Byte) : Loc := (f, reg)

/-- Latched addressing (R129), for WDATA: `(f, latch[f])`; the latch is not modified. -/
def latchedLoc (s : State) (f : RegFile) : Loc := (f, s.latch f)

/-- `T1_REG` = P:0x02 (R28, R49). -/
def t1Reg : Byte := 0x02#8

/-- `T2_REG` = P:0x03 (R29, R49). -/
def t2Reg : Byte := 0x03#8

/-- `TCTRL_REG` = P:0x04 (R30, R49). -/
def tctrlReg : Byte := 0x04#8

/-- The counter register of a timer (R28, R29). -/
def counterReg : TimerId → Byte
  | .one => t1Reg
  | .two => t2Reg

/-- The four classes of a register write (R124). -/
inductive RegClass where
  | timer1Counter
  | timer2Counter
  | timerControl
  | other
deriving DecidableEq, Repr

/-- The classification of R124: only three addresses of the Primary file are intercepted. -/
def classify : RegFile → Byte → RegClass
  | .primary, reg =>
    if reg = t1Reg then .timer1Counter
    else if reg = t2Reg then .timer2Counter
    else if reg = tctrlReg then .timerControl
    else .other
  | .secondary, _ => .other

/-- The core index `bit(f = S) ++ reg` (R43, R127). -/
def coreIndex (f : RegFile) (reg : Byte) : CoreIdx :=
  BitVec.ofBool (decide (f = .secondary)) ++ reg

end Sys2Proof.Machine
end

