-- ==== Sys2Proof/Machine/Ops.lean ====
section
/-! DEFINITION. The named operations over the shadow, the latches, the timers' home, the statistics, the event log, the response
port and the queue of commands.  Every read and write of a state component goes through one of them.

Exceptions.  The block takes none (spec/60_exceptions.md R160, R168: "The block saves no state, switches no mode, masks nothing
and transfers control nowhere when a flag is raised").  All there is of an entry is the assignment `Timer.raiseElapsed`, and of
a return the acknowledge `Timer.resetElapsed` (R169); both stand here. -/

namespace Sys2Proof.Machine

/-! ### The shadow as memory (spec/41_shadow.md R110 to R112) -/

/-- What an address that no entry lists reads as: 0, "all-zero after reset" (R21, R111). -/
def Memory.unlisted : Byte := 0#8

/-- Read one byte (R111). -/
def Memory.read : Memory → Nat → Byte
  | [], _ => Memory.unlisted
  | (k, v) :: rest, a => if k = a then v else Memory.read rest a

/-- Drop an address from the list. -/
def Memory.erase : Memory → Nat → Memory
  | [], _ => []
  | (k, u) :: rest, a => if k = a then Memory.erase rest a else (k, u) :: Memory.erase rest a

/-- List an address, before the first higher one. -/
def Memory.insert : Memory → Nat → Byte → Memory
  | [], a, v => [(a, v)]
  | (k, u) :: rest, a, v => if a < k then (a, v) :: (k, u) :: rest else (k, u) :: Memory.insert rest a v

/-- Write one byte (R110), keeping the canonical form: a byte equal to what an unlisted address reads as is not listed. -/
def Memory.write (m : Memory) (a : Nat) (v : Byte) : Memory :=
  if v = Memory.unlisted then m.erase a else (m.erase a).insert a v

/-- Every byte 0 (R112). -/
def Memory.cleared : Memory := []

/-- The canonical form: addresses strictly rising from `lo` on and below 256, no entry that reads as an unlisted address. -/
def Memory.wfFrom (lo : Nat) : Memory → Bool
  | [] => true
  | (k, v) :: rest => decide (lo ≤ k) && decide (k < 256) && decide (v ≠ Memory.unlisted) && Memory.wfFrom (k + 1) rest

/-- The canonical form of a register file (256 locations, R41, R42). -/
def Memory.wf (m : Memory) : Bool := Memory.wfFrom 0 m

/-- A file of the shadow (R20). -/
def State.shadow (s : State) : RegFile → Memory
  | .primary => s.shadowP
  | .secondary => s.shadowS

/-- Replace a file of the shadow. -/
def State.setShadow (s : State) (f : RegFile) (m : Memory) : State :=
  match f with
  | .primary => { s with shadowP := m }
  | .secondary => { s with shadowS := m }

/-- `shadow_read` (R111). -/
def State.shadowRead (s : State) (f : RegFile) (a : Byte) : Byte := (s.shadow f).read a.toNat

/-- `shadow_write` (R110). -/
def State.shadowWrite (s : State) (f : RegFile) (a v : Byte) : State :=
  s.setShadow f ((s.shadow f).write a.toNat v)

/-- `shadow_reset` (R112): all 512 bytes 0. -/
def State.shadowReset (s : State) : State :=
  { s with shadowP := Memory.cleared, shadowS := Memory.cleared }

/-! ### Latches (R22) -/

/-- `latch[f] <- addr` (R120). -/
def State.setLatch (s : State) (f : RegFile) (addr : Byte) : State :=
  match f with
  | .primary => { s with latchP := addr }
  | .secondary => { s with latchS := addr }

/-! ### The timers' home (R11) -/

/-- `T[i]`. -/
def State.timer (s : State) : TimerId → Timer
  | .one => s.timer1
  | .two => s.timer2

/-- `T[i] <- t`. -/
def State.setTimer (s : State) (i : TimerId) (t : Timer) : State :=
  match i with
  | .one => { s with timer1 := t }
  | .two => { s with timer2 := t }

/-- Apply a timer primitive to `T[i]`; "no primitive of one timer reads or writes the other" (R11). -/
def State.onTimer (s : State) (i : TimerId) (g : Timer → Timer) : State := s.setTimer i (g (s.timer i))

/-- Raise the overflow flag (R163, R168): the single assignment `T[i].elapsed <- 1`. -/
def Timer.raiseElapsed (t : Timer) : Timer := { t with elapsed := true }

/-- `reset_elapsed` (R96, R169): clear the overflow flag and nothing else. -/
def Timer.resetElapsed (t : Timer) : Timer := { t with elapsed := false }

/-! ### Statistics (R24) -/

/-- `stats.data_writes` + 1 (R123 step 3). -/
def State.countDataWrite (s : State) : State :=
  { s with stats := { s.stats with dataWrites := s.stats.dataWrites + 1 } }

/-- `stats.addr_writes` + 1 (R120). -/
def State.countAddrWrite (s : State) : State :=
  { s with stats := { s.stats with addrWrites := s.stats.addrWrites + 1 } }

/-- `stats.status_reads` + 1 (R128). -/
def State.countStatusRead (s : State) : State :=
  { s with stats := { s.stats with statusReads := s.stats.statusReads + 1 } }

/-- All four statistics 0 (R143). -/
def State.clearStats (s : State) : State := { s with stats := Stats.zero }

/-! ### The core and the host -/

/-- `Emit(e)` (R8, R27): append to `core_log`. -/
def State.emit (s : State) (e : CoreEvent) : State := { s with coreLog := s.coreLog ++ [e] }

/-- `Respond(v)` (R8, R70); an operation that returns nothing responds `none`. -/
def State.respond (s : State) (r : Response) : State := { s with response := r }

/-- Step 4 of a register write (R127, R52): one event, to the entry point the `buffered` flag selects. -/
def State.forward (s : State) (f : RegFile) (reg value : Byte) (buffered : Bool) : State :=
  s.emit (if buffered then .coreWriteBuffered (coreIndex f reg) value else .coreWrite (coreIndex f reg) value)

/-- The next command the host has issued, and the state with the rest of them pending (R31). -/
def State.fetch (s : State) : Option (Command × State) :=
  match s.pending with
  | [] => none
  | c :: rest => some (c, { s with pending := rest })

/-- The operation a command stands for; an illegal word stands for none and is refused by name (R71). -/
def Command.instr : Command → Except Refusal Instr
  | .op i => .ok i
  | .word w =>
    match decode w with
    | .ok i => .ok i
    | .error why => .error (.illegalWord w why)

/-- Nothing issued, nothing happens: the block "is passive between operations" (R175).
DESIGN CHOICE (log entry 5): such a step leaves the whole state as it is. -/
def State.idle (s : State) : State := s

end Sys2Proof.Machine
end

