-- ==== Sys2Proof/Machine/Timer.lean ====
section
/-! DEFINITION. The HardwareTimer primitives (spec/40_timer.md R91 to R97).  They are internal: operations invoke them, and they
have no command word (R90). -/

namespace Sys2Proof.Machine

/-- `count` (R92): one step of the 8-bit up-counter, reloaded from `preset` on overflow. -/
def Timer.count (t : Timer) : Timer :=
  if t.enabled then
    if t.counter = 255#8 then { t.raiseElapsed with counter := t.preset }
    else { t with counter := t.counter + 1#8 }
  else t

/-- DEDUCED (log entry 12): how often a loop `while x >= step: x <- x - step` runs from `x`: `floor(x / step)` (R91, R141). -/
def loopPasses (x step : Rat) : Nat := ⌊x / step⌋₊

/-- The loop of `tick` (R91), for at most the given number of passes. -/
def Timer.drain : Nat → Timer → Timer
  | 0, t => t
  | n + 1, t => if (t.rate : Rat) ≤ t.acc then Timer.drain n (Timer.count { t with acc := t.acc - t.rate }) else t

/-- `tick` (R91): add elapsed microseconds to `acc`, then one count step for every `rate` of it.  `acc` runs whether or not the
timer is enabled. -/
def Timer.tick (e : Rat) (t : Timer) : Timer :=
  Timer.drain (loopPasses (t.acc + e) t.rate) { t with acc := t.acc + e }

/-- `mask` (R94). -/
def Timer.setMasked (b : Bool) (t : Timer) : Timer := { t with masked := b }

/-- `enable` (R95). -/
def Timer.setEnabled (b : Bool) (t : Timer) : Timer := { t with enabled := b }

/-- `set_counter` (R97): the direct write of the counter; it writes `preset` too under `REG_WRITE_LOADS_PRESET`. -/
def Timer.setCounter (loadsPreset : Bool) (v : Byte) (t : Timer) : Timer :=
  if loadsPreset then { t with counter := v, preset := v } else { t with counter := v }

/-- `clear_timers`, for one timer (R144): `counter` and `elapsed` to 0. -/
def Timer.cleared (t : Timer) : Timer := { t.resetElapsed with counter := 0#8 }

end Sys2Proof.Machine
end

