-- ==== Sys2Proof/Machine/PortOps.lean ====
section
/-! DEFINITION. The port operations WADDR, WDATA, WREG, RREG, RSTAT (spec/42_port_ops.md R120 to R128). -/

namespace Sys2Proof.Machine

/-- The TimerControl intercept (R126): with ACK = 1 clear both flags and ignore the rest of the byte; else set all four of the
mask and enable flags. -/
def State.controlWrite (s : State) (v : Byte) : State :=
  if ctrlAck v then (s.onTimer .one Timer.resetElapsed).onTimer .two Timer.resetElapsed
  else
    let s := s.onTimer .one (Timer.setMasked (ctrlMask1 v))
    let s := s.onTimer .two (Timer.setMasked (ctrlMask2 v))
    let s := s.onTimer .one (Timer.setEnabled (ctrlStart1 v))
    s.onTimer .two (Timer.setEnabled (ctrlStart2 v))

/-- Step 2 of a register write (R124, R125, R126). -/
def State.intercept (s : State) (f : RegFile) (reg value : Byte) : State :=
  match classify f reg with
  | .timer1Counter => s.onTimer .one (Timer.setCounter s.cfg.regWriteLoadsPreset value)
  | .timer2Counter => s.onTimer .two (Timer.setCounter s.cfg.regWriteLoadsPreset value)
  | .timerControl => s.controlWrite value
  | .other => s

/-- A register write (R123), the document's four steps in its order. -/
def State.writeRegister (s : State) (loc : Loc) (value : Byte) (buffered : Bool) : State :=
  let s := s.shadowWrite loc.1 loc.2 value
  let s := s.intercept loc.1 loc.2 value
  let s := s.countDataWrite
  s.forward loc.1 loc.2 value buffered

/-- WADDR (R120). -/
def execWaddr (f : RegFile) (addr : Byte) (s : State) : Host.Outcome State Fault Refusal :=
  .next (((s.setLatch f addr).countAddrWrite).respond .none)

/-- WDATA (R121): exactly a register write at the latched location. -/
def execWdata (f : RegFile) (buffered : Bool) (data : Byte) (s : State) : Host.Outcome State Fault Refusal :=
  .next ((s.writeRegister (latchedLoc s f) data buffered).respond .none)

/-- WREG (R123). -/
def execWreg (f : RegFile) (buffered : Bool) (reg value : Byte) (s : State) : Host.Outcome State Fault Refusal :=
  .next ((s.writeRegister (directLoc f reg) value buffered).respond .none)

/-- RREG (R122): a pure lookup in the shadow. -/
def execRreg (f : RegFile) (reg : Byte) (s : State) : Host.Outcome State Fault Refusal :=
  .next (s.respond (.byte (s.shadowRead (directLoc f reg).1 (directLoc f reg).2)))

/-- RSTAT (R128): count the read, then synthesize the status byte; no timer flag changes. -/
def execRstat (s : State) : Host.Outcome State Fault Refusal :=
  let s := s.countStatusRead
  .next (s.respond (.byte s.statusByte))

end Sys2Proof.Machine
end

