-- ==== Sys2Proof/Machine/SystemOps.lean ====
section
/-! DEFINITION. The system operations RUN, RESET, RESETR, STATS (spec/43_system_ops.md R140 to R145). -/

namespace Sys2Proof.Machine

/-- One shell tick (R141, R146): `TICK_US` microseconds leave `usec_acc` and go to both timers, timer 1 first (D14). -/
def State.shellTick (s : State) : State :=
  let s := { s with usecAcc := s.usecAcc - s.cfg.tickUs }
  let s := s.onTimer .one (Timer.tick s.cfg.tickUs)
  s.onTimer .two (Timer.tick s.cfg.tickUs)

/-- The loop of `advance_timers` (R141), for at most the given number of passes. -/
def State.shellTicks : Nat → State → State
  | 0, s => s
  | n + 1, s => if s.cfg.tickUs ≤ s.usecAcc then State.shellTicks n s.shellTick else s

/-- `advance_timers(t)` (R141). -/
def State.advanceTimers (s : State) (t : Rat) : State :=
  State.shellTicks (loopPasses (s.usecAcc + t) s.cfg.tickUs) { s with usecAcc := s.usecAcc + t }

/-- `US_PER_SECOND` (R5). -/
def usPerSecond : Rat := 1000000

/-- `sample_acc + t * sample_rate / 1000000` (R142): the frames due, exact. -/
def State.framesDue (s : State) (t : Rat) : Rat := s.sampleAcc + t * s.sampleRate / usPerSecond

/-- `sample_count(t)` (R142): the whole frames due are the response, the fraction is carried. -/
def State.sampleCount (s : State) (t : Rat) : State :=
  { s with sampleAcc := s.framesDue t - ⌊s.framesDue t⌋₊, response := .count ⌊s.framesDue t⌋₊ }

/-- RUN (R140).  A negative operand lies outside its domain and is refused (R162, D13). -/
def execRun (t : Rat) (s : State) : Host.Outcome State Fault Refusal :=
  if t < 0 then .refused (.negativeElapsed t) else .next ((s.advanceTimers t).sampleCount t)

/-- `clear_timers`, under its switch (R144). -/
def State.clearTimers (s : State) : State :=
  if s.cfg.softResetClearsTimers then (s.onTimer .one Timer.cleared).onTimer .two Timer.cleared else s

/-- `do_reset(rate)` (R143). -/
def State.softReset (s : State) (rate : Nat) : State :=
  let s := s.emit (.coreReset rate)
  let s := s.shadowReset
  let s := s.clearStats
  s.clearTimers

/-- RESET (R143): the core is reset at the current sample rate. -/
def execReset (s : State) : Host.Outcome State Fault Refusal :=
  .next ((s.softReset s.sampleRate).respond .none)

/-- RESETR (R143). -/
def execResetr (hz : Nat) (s : State) : Host.Outcome State Fault Refusal :=
  .next ((({ s with sampleRate := hz } : State).softReset hz).respond .none)

/-- STATS (R145): a copy of the four counters; nothing else. -/
def execStats (s : State) : Host.Outcome State Fault Refusal :=
  .next (s.respond (.stats s.stats.dataWrites s.stats.addrWrites s.stats.statusReads s.stats.samplesGenerated))

end Sys2Proof.Machine
end

