-- ==== Sys2Proof/Machine/Dispatch.lean ====
section
/-! DEFINITION. One arm for each constructor of Instr: the operation's meaning. -/

namespace Sys2Proof.Machine

def exec (i : Instr) (s : State) : Host.Outcome State Fault Refusal :=
  match i with
  | .waddr f addr => Sys2Proof.Machine.execWaddr f addr s
  | .wdata f buffered data => Sys2Proof.Machine.execWdata f buffered data s
  | .wreg f buffered reg value => Sys2Proof.Machine.execWreg f buffered reg value s
  | .rreg f reg => Sys2Proof.Machine.execRreg f reg s
  | .rstat => Sys2Proof.Machine.execRstat s
  | .run t => Sys2Proof.Machine.execRun t s
  | .reset => Sys2Proof.Machine.execReset s
  | .resetr hz => Sys2Proof.Machine.execResetr hz s
  | .stats => Sys2Proof.Machine.execStats s

end Sys2Proof.Machine
end

