-- ==== Sys2Proof/Machine/Step.lean ====
section
/-! DEFINITION. One step: the next command the host has issued, executed to completion (spec/10_state.md R31, spec/20_memory.md
R48). -/

namespace Sys2Proof.Machine

/-- Take the next command, resolve it to an operation, execute it.  With nothing issued the block is passive (R175). -/
def step (s : State) : Host.Outcome State Fault Refusal :=
  match s.fetch with
  | none => .next s.idle
  | some (c, s') =>
    match c.instr with
    | .ok i => exec i s'
    | .error r => .refused r

/-- The state in which the host's next command is the given word; every other command stays pending behind it. -/
def State.withFetchWord (s : State) (nbits w : Nat) : State :=
  { s with pending := .word (wordOfTable nbits w) :: s.pending }

end Sys2Proof.Machine
end

