-- ==== Sys2Proof/Machine/Assembly.lean ====
section
/-! DEFINITION. The one-line assembly syntax and the pseudo-instructions (spec/30_encoding.md R75, R76; the spec's own notation,
D4).  DESIGN CHOICE (log entry 17): blanks, tabs and commas separate; a line that is not of the syntax stands for nothing.
Nothing of the machine depends on this file: a line stands for a list of operations. -/

namespace Sys2Proof

/-! ### Pseudo-instructions (R76) -/

/-- The pseudo-instructions. -/
inductive Pseudo where
  /-- `WPORT f, a, v` and `WPORT.B f, a, v`. -/
  | wport (f : RegFile) (buffered : Bool) (a v : Byte)
  | t1set (v : Byte)
  | t2set (v : Byte)
  | tctrl (v : Byte)
  | ack
deriving DecidableEq, Repr

/-- The exact expansion of each (R76). -/
def Pseudo.expand : Pseudo → List Instr
  | .wport f b a v => [.waddr f a, .wdata f b v]
  | .t1set v => [.wreg .primary false 0x02#8 v]
  | .t2set v => [.wreg .primary false 0x03#8 v]
  | .tctrl v => [.wreg .primary false 0x04#8 v]
  | .ack => [.wreg .primary false 0x04#8 0x80#8]

/-! ### Numbers (R75: decimal, or `0x` hexadecimal) -/

/-- The value of a digit below `base`. -/
def digitValue (base : Nat) (c : Char) : Option Nat :=
  let n := c.toNat
  let d :=
    if 48 ≤ n ∧ n ≤ 57 then some (n - 48)
    else if 97 ≤ n ∧ n ≤ 102 then some (n - 87)
    else if 65 ≤ n ∧ n ≤ 70 then some (n - 55)
    else none
  d.filter (· < base)

/-- Read digits on from the value `acc`. -/
def digitsFrom (base : Nat) : Nat → List Char → Option Nat
  | acc, [] => some acc
  | acc, c :: cs => (digitValue base c).bind fun d => digitsFrom base (acc * base + d) cs

/-- A number token. -/
def numberOf : List Char → Option Nat
  | [] => none
  | '0' :: 'x' :: c :: cs => digitsFrom 16 0 (c :: cs)
  | c :: cs => digitsFrom 10 0 (c :: cs)

/-- A byte operand. -/
def byteOf (tok : List Char) : Option Byte :=
  (numberOf tok).bind fun n => if n < 256 then some (BitVec.ofNat 8 n) else none

/-- RUN's operand: `n`, or `n+k/256` with `0 <= k < 256`. -/
def usecOf (tok : List Char) : Option Rat :=
  match tok.span (· ≠ '+') with
  | (whole, []) => (numberOf whole).map fun n => mkRat n 1
  | (whole, _ :: rest) =>
    match rest.span (· ≠ '/') with
    | (frac, ['/', '2', '5', '6']) =>
      (numberOf whole).bind fun n => (numberOf frac).bind fun k =>
        if k < 256 then some (mkRat (n * 256 + k) 256) else none
    | _ => none

/-- A file operand: P or S. -/
def fileOf : List Char → Option RegFile
  | ['P'] => some .primary
  | ['S'] => some .secondary
  | _ => none

/-! ### Lines -/

/-- The part of a line before its comment. -/
def stripComment : List Char → List Char
  | [] => []
  | ';' :: _ => []
  | c :: cs => c :: stripComment cs

/-- Add a finished word, if it is not empty, to the tokens that follow it. -/
def pushWord (word : List Char) (toks : List (List Char)) : List (List Char) :=
  if word.isEmpty then toks else word.reverse :: toks

/-- Split into words and commas; `word` holds the letters read so far, the latest first. -/
def tokensFrom : List Char → List Char → List (List Char)
  | word, [] => pushWord word []
  | word, c :: cs =>
    if c = ' ' ∨ c = '\t' then pushWord word (tokensFrom [] cs)
    else if c = ',' then pushWord word ([','] :: tokensFrom [] cs)
    else tokensFrom (c :: word) cs

/-- A mnemonic and its suffix `.B`: the letters before it, and whether it stands there. -/
def splitSuffix : List Char → List Char × Bool
  | [] => ([], false)
  | ['.', 'B'] => ([], true)
  | c :: cs => (c :: (splitSuffix cs).1, (splitSuffix cs).2)

/-- The operations of a line with a mnemonic that takes the suffix `.B`. -/
def bufferedLine (mnemonic : List Char) (b : Bool) : List (List Char) → Option (List Instr)
  | [f, [','], d] =>
    if mnemonic = "WDATA".toList then
      (fileOf f).bind fun f => (byteOf d).map fun d => [.wdata f b d]
    else none
  | [f, [','], r, [','], v] =>
    (fileOf f).bind fun f => (byteOf r).bind fun r => (byteOf v).bind fun v =>
      if mnemonic = "WREG".toList then some [.wreg f b r v]
      else if mnemonic = "WPORT".toList then some (Pseudo.wport f b r v).expand
      else none
  | _ => none

/-- The operations of a line with a mnemonic that takes no suffix. -/
def plainLine (mnemonic : List Char) : List (List Char) → Option (List Instr)
  | [] =>
    if mnemonic = "RSTAT".toList then some [.rstat]
    else if mnemonic = "RESET".toList then some [.reset]
    else if mnemonic = "STATS".toList then some [.stats]
    else if mnemonic = "ACK".toList then some Pseudo.ack.expand
    else none
  | [x] =>
    if mnemonic = "RUN".toList then (usecOf x).map fun t => [.run t]
    else if mnemonic = "RESETR".toList then (numberOf x).map fun hz => [.resetr hz]
    else if mnemonic = "T1SET".toList then (byteOf x).map fun v => (Pseudo.t1set v).expand
    else if mnemonic = "T2SET".toList then (byteOf x).map fun v => (Pseudo.t2set v).expand
    else if mnemonic = "TCTRL".toList then (byteOf x).map fun v => (Pseudo.tctrl v).expand
    else none
  | [f, [','], a] =>
    if mnemonic = "WADDR".toList then (fileOf f).bind fun f => (byteOf a).map fun a => [.waddr f a]
    else if mnemonic = "RREG".toList then (fileOf f).bind fun f => (byteOf a).map fun a => [.rreg f a]
    else none
  | _ => none

/-- The operations one line of assembly stands for (R75, R76): none for a blank line or a comment, two for WPORT, one for every
other mnemonic; `none` where the line is not of the syntax. -/
def assembleLine (line : String) : Option (List Instr) :=
  match tokensFrom [] (stripComment line.toList) with
  | [] => some []
  | m :: args => (plainLine m args).orElse fun _ => bufferedLine (splitSuffix m).1 (splitSuffix m).2 args

end Sys2Proof
end

