-- ==== Sys2Proof/Safety.lean ====
section
/-! DEFINITION. What counts as a safe run, and the words claims are stated in: the invariant every operation keeps, the commands
that never stop the block, runs of several operations, what an operation stores, and the frames. -/

namespace Sys2Proof.Machine

/-! ### Invariants -/

/-- What holds of timer `i` between operations (R11, R14, R15, R17). -/
structure Timer.Inv (c : Config) (i : TimerId) (t : Timer) : Prop where
  rate_eq : t.rate = Config.timerRate i
  acc_nonneg : 0 ≤ t.acc
  acc_lt : t.acc < t.rate
  preset_eq : c.regWriteLoadsPreset = false → t.preset = c.presetInit i

/-- What holds of the block between operations: the ranges of the table of R10, the canonical form of the shadow, the first
event of the log (R27), and the statistic nothing in scope increments (R24). -/
structure State.Inv (s : State) : Prop where
  cfg_valid : s.cfg.valid
  timer1 : s.timer1.Inv s.cfg .one
  timer2 : s.timer2.Inv s.cfg .two
  shadowP_wf : s.shadowP.wf = true
  shadowS_wf : s.shadowS.wf = true
  sampleAcc_nonneg : 0 ≤ s.sampleAcc
  sampleAcc_lt : s.sampleAcc < 1
  usecAcc_nonneg : 0 ≤ s.usecAcc
  usecAcc_lt : s.usecAcc < s.cfg.tickUs
  samplesGenerated_eq : s.stats.samplesGenerated = 0
  coreLog_head : s.coreLog.head? = some (.coreReset s.cfg.initSampleRate)

/-- The derived invariant of R19 for `TICK_US` = 80: `T[1].acc` = 0 and `T[2].acc` is one of 0, 80, 160, 240. -/
def State.PhaseInv (s : State) : Prop :=
  s.cfg.tickUs = 80 →
    s.timer1.acc = 0 ∧ (s.timer2.acc = 0 ∨ s.timer2.acc = 80 ∨ s.timer2.acc = 160 ∨ s.timer2.acc = 240)

/-! ### Commands that never stop the block -/

/-- A command the block executes: an operation in its domain, or a legal command word (R71, R160). -/
def Command.legal : Command → Bool
  | .op i => i.inDomain
  | .word w => (decodeOption w).isSome

/-! ### Runs of several operations (R31: "a finite list", applied in order) -/

/-- Execute a list of operations in order. -/
def execAll : List Instr → State → Host.Outcome State Fault Refusal
  | [], s => .next s
  | i :: is, s =>
    match exec i s with
    | .next t => execAll is t
    | .fault r => .fault r
    | .refused r => .refused r

/-- The responses of a list of operations, in order, up to the first that is refused. -/
def responses : List Instr → State → List Response
  | [], _ => []
  | i :: is, s =>
    match exec i s with
    | .next t => t.response :: responses is t
    | .fault _ => []
    | .refused _ => []

/-- The number in a `count` response, 0 for every other. -/
def Response.frames : Response → Nat
  | .count n => n
  | .none | .byte _ | .stats _ _ _ _ => 0

/-- What each location of the shadow holds after a history of operations, told from the operations alone: the last value
written to it since the last reset (R21), with the latches followed (R22). -/
def lastWritten : List Instr → (RegFile → Byte) → (Loc → Byte) → Loc → Byte
  | [], _, m => m
  | .waddr f a :: is, l, m => lastWritten is (Function.update l f a) m
  | .wdata f _ v :: is, l, m => lastWritten is l (Function.update m (f, l f) v)
  | .wreg f _ r v :: is, l, m => lastWritten is l (Function.update m (f, r) v)
  | .reset :: is, l, _ => lastWritten is l fun _ => 0
  | .resetr _ :: is, l, _ => lastWritten is l fun _ => 0
  | .rreg _ _ :: is, l, m => lastWritten is l m
  | .rstat :: is, l, m => lastWritten is l m
  | .run _ :: is, l, m => lastWritten is l m
  | .stats :: is, l, m => lastWritten is l m

/-- The operations change nothing at a location of the shadow: none stores to it and none resets. -/
def LeavesAlone (loc : Loc) : List Instr → State → Prop
  | [], _ => True
  | i :: is, s =>
    (match i with
      | .wdata f _ _ => latchedLoc s f ≠ loc
      | .wreg f _ r _ => directLoc f r ≠ loc
      | .reset => False
      | .resetr _ => False
      | .waddr _ _ | .rreg _ _ | .rstat | .run _ | .stats => True) ∧
      ∀ t, exec i s = .next t → LeavesAlone loc is t

/-! ### Stores -/

/-- The location and the byte an operation stores to the shadow, none where it stores nothing. -/
def storeOf (s : State) : Instr → Option (Loc × Byte)
  | .wdata f _ v => some (latchedLoc s f, v)
  | .wreg f _ r v => some (directLoc f r, v)
  | .waddr _ _ | .rreg _ _ | .rstat | .run _ | .reset | .resetr _ | .stats => none

/-! ### Frames -/

/-- Every byte of both files reads as before. -/
def SameShadow (s t : State) : Prop := ∀ f a, t.shadowRead f a = s.shadowRead f a

/-- Every byte of both files but the one at `loc` reads as before. -/
def SameShadowBut (loc : Loc) (s t : State) : Prop :=
  ∀ f a, (f, a) ≠ loc → t.shadowRead f a = s.shadowRead f a

/-- Both latches as before. -/
def SameLatches (s t : State) : Prop := ∀ f, t.latch f = s.latch f

/-- Both timers as before, in all seven attributes. -/
def SameTimers (s t : State) : Prop := ∀ i, t.timer i = s.timer i

/-- The sample rate and both accumulators of RUN as before. -/
def SameClock (s t : State) : Prop :=
  t.sampleRate = s.sampleRate ∧ t.sampleAcc = s.sampleAcc ∧ t.usecAcc = s.usecAcc

/-- The parameters and the commands still pending as before. -/
def SameHostSide (s t : State) : Prop := t.cfg = s.cfg ∧ t.pending = s.pending

/-- A register write at `loc` of the byte `v` (R123), but for its effect on the timers (step 2): the byte stored and no other,
one data write counted and no other statistic moved, one event appended, the latches and the rest unchanged, no response. -/
structure RegisterWritten (s t : State) (loc : Loc) (v : Byte) (buffered : Bool) : Prop where
  stored : t.shadowRead loc.1 loc.2 = v
  shadow : SameShadowBut loc s t
  stats : t.stats = { s.stats with dataWrites := s.stats.dataWrites + 1 }
  log : t.coreLog =
    s.coreLog ++
      [if buffered then .coreWriteBuffered (coreIndex loc.1 loc.2) v else .coreWrite (coreIndex loc.1 loc.2) v]
  latches : SameLatches s t
  clock : SameClock s t
  host : SameHostSide s t
  response : t.response = .none

/-- Two states agree on what the status byte can depend on: the parameters, the timers, the microseconds not yet consumed, and
the latches (which say where a WDATA goes). -/
structure SameTimeline (s t : State) : Prop where
  cfg : t.cfg = s.cfg
  timers : SameTimers s t
  usecAcc : t.usecAcc = s.usecAcc
  latches : SameLatches s t

end Sys2Proof.Machine
end

