-- ==== Sys2Proof/Certificates/Slice0/Obligations.lean ====
section
/-! DEFINITION. The statements for the provers.  A docstring names the rule of spec/ a statement formalises; where it rests on a
decision of the spec's own (D<n>) or a choice of the model's, it says so. -/

open Sys2Proof Sys2Proof.Machine

/-! ### The command word -/

/-- Words of spec/95_test_vectors.md V1 and V2: one legal word for each row of the opcode map decodes to the operation V1 gives,
and illegal words of V2 are refused.  The layout and the refusal are the spec's own (D2, D3, D13); the reason code each refusal
carries is the MODEL's (log entry 18, DESIGN CHOICE: the spec gives an illegal word no reason code). -/
def Obligations.SpecWordsDecode : Prop :=
  decode 0x10000200#32 = .ok (.waddr .primary 0x02#8) ∧
  decode 0x2C000001#32 = .ok (.wdata .secondary true 0x01#8) ∧
  decode 0x38000403#32 = .ok (.wreg .secondary false 0x04#8 0x03#8) ∧
  decode 0x48000500#32 = .ok (.rreg .secondary 0x05#8) ∧
  decode 0x50000000#32 = .ok .rstat ∧
  decode 0x60001480#32 = .ok (.run (41 / 2)) ∧
  decode 0x70000000#32 = .ok .reset ∧
  decode 0x8000AC44#32 = .ok (.resetr 44100) ∧
  decode 0x90000000#32 = .ok .stats ∧
  decode 0x00000000#32 = .error (.reservedOpcode 0x0#4) ∧
  decode 0xFFFFFFFF#32 = .error (.reservedOpcode 0xF#4) ∧
  decode 0x14000200#32 = .error (.mustBeZero .waddr) ∧
  decode 0x32000401#32 = .error (.mustBeZero .wreg) ∧
  decode 0x20000100#32 = .error (.mustBeZero .wdata) ∧
  decode 0x40000201#32 = .error (.mustBeZero .rreg) ∧
  decode 0x70000001#32 = .error (.mustBeZero .reset)

/-- A word is illegal exactly as R71 lists, field by field, and a step whose next command it is refuses it by name.  The layout
and that it is refused are the spec's own (D2, D3); the queue `pending` whose head the word is, and what the refusal carries, are
the MODEL's (log entries 4 and 18, DESIGN CHOICE). -/
def Obligations.IllegalWordsAreExactlyThoseListed : Prop :=
  (∀ w : Word, (∃ why, decode w = .error why) ↔
    opField w = 0x0#4 ∨ 0xA#4 ≤ opField w ∨
    ((opField w = 0x1#4 ∨ opField w = 0x4#4) ∧ (zField w ≠ 0 ∨ bField w = true ∨ dataField w ≠ 0)) ∨
    (opField w = 0x2#4 ∧ (zField w ≠ 0 ∨ regField w ≠ 0)) ∨
    (opField w = 0x3#4 ∧ zField w ≠ 0) ∨
    ((opField w = 0x5#4 ∨ opField w = 0x7#4 ∨ opField w = 0x9#4) ∧ immField w ≠ 0)) ∧
  (∀ (s : State) (w : Word) (why : Illegal) (rest : List Command),
    s.pending = .word w :: rest → decode w = .error why → step s = .refused (.illegalWord w why))

/-- Decode after encode is the identity on every operation whose operands fit; encode after decode is the identity on every
legal word, and yields operands that fit; the decoder answers exactly the operation of the one row of the opcode map that the
word matches (R65, R74, V3).  The layout is the spec's own (D2; RUN's immediate D13). -/
def Obligations.DecodeAndEncodeAgree : Prop :=
  (∀ i : Instr, i.wf = true → decode (encode i) = .ok i) ∧
  (∀ (w : Word) (i : Instr), decode w = .ok i → i.wf = true ∧ encode i = w) ∧
  (∀ (w : Word) (i : Instr),
    decode w = .ok i ↔ ∃ row : Opcode, row.matchesWord w = true ∧ i = row.operation w) ∧
  (∀ (w : Word) (r₁ r₂ : Opcode), r₁.matchesWord w = true → r₂.matchesWord w = true → r₁ = r₂)

/-- RUN's immediate is an unsigned fixed-point number: `CW[27:8]` whole microseconds and `CW[7:0]` units of 1/256 (R67, D13). -/
def Obligations.RunImmediateIsFixedPoint : Prop :=
  ∀ w : Word, opField w = 0x6#4 →
    ∃ t : Rat, decode w = .ok (.run t) ∧
      t = ((w.extractLsb' 8 20).toNat : Rat) + ((w.extractLsb' 0 8).toNat : Rat) / 256 ∧ 0 ≤ t ∧ t < 2 ^ 20

/-! ### Steps, power-on, and what never happens -/

/-- A step executes the next command to completion with the rest of the commands left pending: a legal word as the operation it
decodes to, an abstract operation as itself.  With no command pending it leaves the state as it is (the model's choice, log
entry 5; the queue is log entry 4). -/
def Obligations.StepRunsTheDecodedOperation : Prop :=
  (∀ (s : State) (w : Word) (i : Instr) (rest : List Command),
    s.pending = .word w :: rest → decode w = .ok i → step s = exec i { s with pending := rest }) ∧
  (∀ (s : State) (i : Instr) (rest : List Command),
    s.pending = .op i :: rest → step s = exec i { s with pending := rest }) ∧
  (∀ s : State, s.pending = [] → step s = .next s)

/-- What power-on leaves, for every parameter set (R181).  The zeros of the timers, latches and accumulators are the spec's
decisions D6 and D7, the first event is D28 (log entry 6); that timer 1 has the rate 80 and timer 2 the rate 320 is D8 (log
entry 7).  The parameters held in the state, the empty response port and the empty queue are the MODEL's (log entries 1, 3 and 4,
DESIGN CHOICE). -/
def Obligations.PowerOnLeaves : Prop :=
  ∀ c : Config,
    (∀ i, (State.powerOn c).timer i =
      { enabled := false, masked := false, rate := (match i with | .one => 80 | .two => 320),
        preset := (match i with | .one => c.presetInit1 | .two => c.presetInit2), counter := 0, acc := 0, elapsed := false }) ∧
    (∀ f a, (State.powerOn c).shadowRead f a = 0 ∧ (State.powerOn c).latch f = 0) ∧
    (State.powerOn c).sampleRate = c.initSampleRate ∧ (State.powerOn c).sampleAcc = 0 ∧ (State.powerOn c).usecAcc = 0 ∧
    (State.powerOn c).stats = ⟨0, 0, 0, 0⟩ ∧
    (State.powerOn c).coreLog = [.coreReset c.initSampleRate] ∧
    (State.powerOn c).cfg = c ∧ (State.powerOn c).response = .none ∧ (State.powerOn c).pending = [] ∧
    (∃ t, exec .rstat (State.powerOn c) = .next t ∧ t.response = .byte 0x00#8) ∧
    (∀ f a, ∃ t, exec (.rreg f a) (State.powerOn c) = .next t ∧ t.response = .byte 0x00#8) ∧
    (∃ t, exec .stats (State.powerOn c) = .next t ∧ t.response = .stats 0 0 0 0)

/-- The invariants (ranges of R10, the prescaler phase of R19) hold at power-on (R181) with every parameter set R5 admits, so at
reset.  The values they hold of are the spec's decisions: the zeros D6 and D7, the first event D28 (log entry 6), the rates D8
(log entry 7); the form of the shadow's lists is the MODEL's (log entry 22), and so are the parameters of `State.reset` (log
entries 1 and 2, DESIGN CHOICE). -/
def Obligations.InvariantHoldsAtPowerOn : Prop :=
  (∀ c : Config, c.valid → (State.powerOn c).Inv ∧ (State.powerOn c).PhaseInv) ∧
  State.reset.Inv ∧ State.reset.PhaseInv

/-- Every step keeps the invariant: the accumulators in their ranges, the rates and (without the switch) the presets constant,
`samples_generated` at 0, the first event of the log, the shadow in canonical form (ranges of R10, R14, R15, R17, R24 to R27).
The rates are the spec's decision D8, that nothing else writes `preset` is D9, that nothing in scope counts `samples_generated` is
D16, the first event is D28; the canonical form is the MODEL's own representation of the shadow (log entry 22, DESIGN CHOICE), and
so is the queue a step takes its command from (log entry 4). -/
def Obligations.StepKeepsTheInvariant : Prop :=
  ∀ s t : State, s.Inv → step s = .next t → t.Inv

/-- With `TICK_US` = 80 every step keeps `T[1].acc` = 0 and `T[2].acc` one of 0, 80, 160, 240 (R19, derived; D10, and the
rates of D8). -/
def Obligations.StepKeepsThePrescalerPhase : Prop :=
  ∀ s t : State, s.Inv → s.PhaseInv → step s = .next t → t.PhaseInv

/-- No operation raises anything: every operation in its domain completes in every state, and no operation faults (R160; the
domains are R60's). -/
def Obligations.EveryOperationCompletes : Prop :=
  (∀ (i : Instr) (s : State), i.inDomain = true → ∃ t, exec i s = .next t) ∧
  (∀ (i : Instr) (s : State) (r : Fault), exec i s ≠ .fault r)

/-- The one operation refused is RUN with a negative operand, which lies outside its domain: the spec's decision D13
(log entry 10), under a name of the model's. -/
def Obligations.OnlyANegativeRunIsRefused : Prop :=
  ∀ (i : Instr) (s : State) (r : Refusal),
    exec i s = .refused r ↔ ∃ t : Rat, t < 0 ∧ i = .run t ∧ r = .negativeElapsed t

/-- A program of legal commands runs to its end from every state: as many steps as it has commands, none left.  That a program is
a finite list of commands is the spec's decision D5 (R31), that every operation is total from power-on on is R183 (D25), that
some words are illegal is D3; that the program stands in the queue `pending`, which a step shortens, is the MODEL's (log entry 4,
DESIGN CHOICE). -/
def Obligations.LegalProgramsRunToTheirEnd : Prop :=
  ∀ s : State, (∀ c ∈ s.pending, c.legal = true) →
    ∃ t, core.run s.pending.length s = .next t ∧ t.pending = []

/-! ### The timer primitives -/

/-- `count` (R92): a disabled timer is left as it is; an enabled one steps up, and the step after 255 sets `elapsed` and reloads
`counter` from `preset`, whatever `masked` is. -/
def Obligations.CountStepsAndReloads : Prop :=
  ∀ t : Timer,
    (t.enabled = false → t.count = t) ∧
    (t.enabled = true → t.counter = 255#8 → t.count = { t with elapsed := true, counter := t.preset }) ∧
    (t.enabled = true → t.counter ≠ 255#8 →
      t.count = { t with counter := t.count.counter } ∧ t.count.counter.toNat = t.counter.toNat + 1)

/-- `tick` (R91), the closed form: with `a = acc + e` and `k = floor(a / rate)` it performs exactly `k` count steps and leaves
`acc = a - k * rate`, in [0, rate); and `e = 0` changes nothing. -/
def Obligations.TickPerformsTheCountStepsDue : Prop :=
  ∀ (t : Timer) (e : Rat), 0 < t.rate → 0 ≤ t.acc → 0 ≤ e →
    (∃ k : Nat, (k : Rat) * t.rate ≤ t.acc + e ∧ t.acc + e < ((k : Rat) + 1) * t.rate ∧
      Timer.tick e t = Timer.count^[k] { t with acc := t.acc + e - k * t.rate }) ∧
    0 ≤ (Timer.tick e t).acc ∧ (Timer.tick e t).acc < t.rate ∧
    (t.acc < t.rate → Timer.tick 0 t = t)

/-- The period law (R98, derived from R92): `k` count steps of an enabled timer from `counter` = c with `preset` = p, and how
many of them overflow. -/
def Obligations.CountStepsClosedForm : Prop :=
  ∀ (t : Timer) (k : Nat), t.enabled = true →
    (k < 256 - t.counter.toNat →
      Timer.count^[k] t = { t with counter := BitVec.ofNat 8 (t.counter.toNat + k) } ∧
      ((List.range k).filter fun j => (Timer.count^[j] t).counter = 255#8).length = 0) ∧
    (256 - t.counter.toNat ≤ k →
      Timer.count^[k] t =
        { t with
          counter := BitVec.ofNat 8 (t.preset.toNat + (k - (256 - t.counter.toNat)) % (256 - t.preset.toNat))
          elapsed := true } ∧
      ((List.range k).filter fun j => (Timer.count^[j] t).counter = 255#8).length =
        1 + (k - (256 - t.counter.toNat)) / (256 - t.preset.toNat))

/-! ### The shadow's primitives and the core index -/

/-- `shadow_write` stores its byte at (f, a) and nowhere else, `shadow_read` returns it, `shadow_reset` zeroes all 512 bytes;
the two writers change nothing but the shadow (R110, R111, R112). -/
def Obligations.ShadowPrimitivesStoreReadAndClear : Prop :=
  (∀ (s : State) (f : RegFile) (a v : Byte) (g : RegFile) (b : Byte),
    (s.shadowWrite f a v).shadowRead g b = if (g, b) = (f, a) then v else s.shadowRead g b) ∧
  (∀ (s : State) (f : RegFile) (a v : Byte),
    s.shadowWrite f a v = { s with
      shadowP := (s.shadowWrite f a v).shadowP
      shadowS := (s.shadowWrite f a v).shadowS }) ∧
  (∀ (s : State) (f : RegFile) (a : Byte), s.shadowReset.shadowRead f a = 0) ∧
  (∀ s : State, s.shadowReset = { s with
    shadowP := s.shadowReset.shadowP
    shadowS := s.shadowReset.shadowS })

/-- The core index is `reg` for the Primary file and 0x100 + `reg` for the Secondary, and the mapping is a bijection between
the 512 locations and the 512 indices (R43). -/
def Obligations.CoreIndexIsABijection : Prop :=
  (∀ (f : RegFile) (r : Byte),
    (coreIndex f r).toNat = (match f with | .primary => 0x000 | .secondary => 0x100) + r.toNat) ∧
  (∀ idx : CoreIdx, ∃ f r, coreIndex f r = idx ∧ ∀ g q, coreIndex g q = idx → g = f ∧ q = r)

/-! ### Register port operations -/

/-- WADDR (R22, R120): sets the latch of its file and counts one address write; all else stays.  That it counts is D15. -/
def Obligations.WaddrSetsTheLatch : Prop :=
  ∀ (s : State) (f : RegFile) (a : Byte), ∃ t, exec (.waddr f a) s = .next t ∧
    t.latch f = a ∧ (∀ g, g ≠ f → t.latch g = s.latch g) ∧
    t.stats = { s.stats with addrWrites := s.stats.addrWrites + 1 } ∧ t.response = .none ∧
    SameShadow s t ∧ SameTimers s t ∧ SameClock s t ∧ t.coreLog = s.coreLog ∧ SameHostSide s t

/-- WREG (steps 1, 3 and 4 of R123; R127): stores, counts and forwards for every address of both files, one event for each
write, to the entry point the flag selects, at the 9-bit index of R43.  Its effect on the timers is stated by the three
statements after the next. -/
def Obligations.WregStoresCountsAndForwards : Prop :=
  ∀ (s : State) (f : RegFile) (b : Bool) (r v : Byte), ∃ t, exec (.wreg f b r v) s = .next t ∧
    (∀ loc, directLoc f r = loc → RegisterWritten s t loc v b) ∧
    (coreIndex f r).toNat = (match f with | .primary => 0x000 | .secondary => 0x100) + r.toNat

/-- WDATA (R121): exactly WREG at the latched register of its file; the latch is read and not changed. -/
def Obligations.WdataIsWregAtTheLatch : Prop :=
  ∀ (s : State) (f : RegFile) (b : Bool) (v : Byte), ∃ t, exec (.wdata f b v) s = .next t ∧
    exec (.wreg f b (s.latch f) v) s = .next t ∧
    (∀ loc, latchedLoc s f = loc → RegisterWritten s t loc v b) ∧
    (∀ w, ∃ u, exec (.wdata f b w) t = .next u ∧ exec (.wreg f b (s.latch f) w) t = .next u)

/-- A write to P:0x02 or P:0x03 sets the counter of timer 1 or timer 2 directly and no flag; it writes `preset` only under
`REG_WRITE_LOADS_PRESET` (R97, R125).  That `preset` is otherwise left alone is D9. -/
def Obligations.CounterRegisterWriteSetsTheCounter : Prop :=
  ∀ (s : State) (b : Bool) (v : Byte),
    (∃ t, exec (.wreg .primary b 0x02#8 v) s = .next t ∧
      t.timer .one =
        { s.timer1 with counter := v, preset := if s.cfg.regWriteLoadsPreset then v else s.timer1.preset } ∧
      t.timer .two = s.timer2) ∧
    (∃ t, exec (.wreg .primary b 0x03#8 v) s = .next t ∧
      t.timer .two =
        { s.timer2 with counter := v, preset := if s.cfg.regWriteLoadsPreset then v else s.timer2.preset } ∧
      t.timer .one = s.timer1)

/-- A write to P:0x04 (R126): with bit 7 set it clears both overflow flags and ignores the rest of the byte; with bit 7 clear
it sets all four mask and start flags from bits 6, 5, 1, 0 and leaves the overflow flags; it touches no counter, preset or
accumulator.  That bits 4:2 are ignored is the spec's decision D26. -/
def Obligations.ControlWriteAcknowledgesOrSetsFlags : Prop :=
  ∀ (s : State) (b : Bool) (v : Byte), ∃ t, exec (.wreg .primary b 0x04#8 v) s = .next t ∧
    (v.getLsbD 7 = true →
      t.timer .one = { s.timer1 with elapsed := false } ∧ t.timer .two = { s.timer2 with elapsed := false }) ∧
    (v.getLsbD 7 = false →
      t.timer .one = { s.timer1 with masked := v.getLsbD 6, enabled := v.getLsbD 0 } ∧
      t.timer .two = { s.timer2 with masked := v.getLsbD 5, enabled := v.getLsbD 1 })

/-- The classification of R124: the three intercepted addresses of the Primary file and everything else; a write of the class
Other, so every write to the Secondary file, has no effect on the timers. -/
def Obligations.OtherRegisterWritesLeaveTheTimers : Prop :=
  (∀ (f : RegFile) (r : Byte),
    (classify f r = .timer1Counter ↔ f = .primary ∧ r = 0x02#8) ∧
    (classify f r = .timer2Counter ↔ f = .primary ∧ r = 0x03#8) ∧
    (classify f r = .timerControl ↔ f = .primary ∧ r = 0x04#8) ∧
    (classify f r = .other ↔ f = .secondary ∨ (r ≠ 0x02#8 ∧ r ≠ 0x03#8 ∧ r ≠ 0x04#8))) ∧
  (∀ (s : State) (f : RegFile) (b : Bool) (r v : Byte),
    (f = .secondary ∨ (r ≠ 0x02#8 ∧ r ≠ 0x03#8 ∧ r ≠ 0x04#8)) →
    ∃ t, exec (.wreg f b r v) s = .next t ∧ SameTimers s t)

/-- Buffered and immediate writes differ only in which core entry point receives the event (R53), for WREG and WDATA. -/
def Obligations.BufferedFlagOnlySelectsTheEntryPoint : Prop :=
  ∀ (s : State) (f : RegFile) (r v : Byte),
    (∃ t : State, exec (.wreg f false r v) s = .next { t with coreLog := s.coreLog ++ [.coreWrite (coreIndex f r) v] } ∧
      exec (.wreg f true r v) s = .next { t with coreLog := s.coreLog ++ [.coreWriteBuffered (coreIndex f r) v] }) ∧
    (∃ t : State, exec (.wdata f false v) s = .next { t with coreLog := s.coreLog ++ [.coreWrite (coreIndex f (s.latch f)) v] } ∧
      exec (.wdata f true v) s =
        .next { t with coreLog := s.coreLog ++ [.coreWriteBuffered (coreIndex f (s.latch f)) v] })

/-- RREG (R122): responds the shadow byte and writes no state at all. -/
def Obligations.RregReadsTheShadow : Prop :=
  ∀ (s : State) (f : RegFile) (r : Byte), ∃ t, exec (.rreg f r) s = .next t ∧
    t.response = .byte (s.shadowRead f r) ∧ t = { s with response := t.response } ∧ SameShadow s t

/-- RSTAT (R32, R128): bits 6 and 5 are the timers' overflow flags as seen through their masks, bit 7 their OR, bits 4:0 zero,
so the byte is 0x00, 0xC0, 0xA0 or 0xE0; it counts one status read and changes nothing else, so a second RSTAT responds the
same.  That timer 2's bit passes through its mask is conflict C4 as spec/90_conflicts.md settles it, the spec's decision D21 (log
entry 20). -/
def Obligations.RstatSynthesizesTheStatusByte : Prop :=
  ∀ s : State, ∃ t b, exec .rstat s = .next t ∧ t.response = .byte b ∧
    b.getLsbD 6 = (s.timer1.elapsed && !s.timer1.masked) ∧
    b.getLsbD 5 = (s.timer2.elapsed && !s.timer2.masked) ∧
    b.getLsbD 7 = (b.getLsbD 6 || b.getLsbD 5) ∧
    (b = 0x00#8 ∨ b = 0xC0#8 ∨ b = 0xA0#8 ∨ b = 0xE0#8) ∧
    t = { s with
      stats := { s.stats with statusReads := s.stats.statusReads + 1 }
      response := .byte b } ∧
    SameShadow s t ∧
    (∃ u, exec .rstat t = .next u ∧ u.response = .byte b)

/-- A control write with ACK = 0 followed by a status read shows each timer's overflow flag, however old, through the mask just
written: unmasking reveals a pending flag at once, masking hides it, and neither clears it (R13, R165, R193).  That
timer 2's bit passes through its mask is conflict C4 and the spec's decision D21, that bits 4:2 do nothing is D26. -/
def Obligations.StatusAfterControlWriteShowsThroughTheNewMask : Prop :=
  ∀ (s : State) (b : Bool) (v : Byte), v.getLsbD 7 = false →
    ∃ t u, exec (.wreg .primary b 0x04#8 v) s = .next t ∧ exec .rstat t = .next u ∧
      u.response = .byte (statusOf (s.timer1.elapsed && !v.getLsbD 6) (s.timer2.elapsed && !v.getLsbD 5)) ∧
      u.timer1.elapsed = s.timer1.elapsed ∧ u.timer2.elapsed = s.timer2.elapsed

/-- Every location of the shadow holds the last value a write operation passed to it since the last reset, and zero where there
was none, after every list of operations from power-on (R21): the shadow refines a function that the operations alone drive.
Where a WDATA goes before the first WADDR, or after a reset, is the spec's D7 and D19. -/
def Obligations.ShadowHoldsTheLastValueWritten : Prop :=
  ∀ (c : Config) (ops : List Instr) (t : State), execAll ops (State.powerOn c) = .next t →
    ∀ f a, t.shadowRead f a = lastWritten ops (fun _ => 0) (fun _ => 0) (f, a) ∧
      ∃ u, exec (.rreg f a) t = .next u ∧
        u.response = .byte (lastWritten ops (fun _ => 0) (fun _ => 0) (f, a))

/-- The round-trip law (R113, derived): a byte written by WREG is read back by RREG after any operations that neither write that
register nor reset, from every state. -/
def Obligations.WrittenByteReadsBackUntilOverwritten : Prop :=
  ∀ (s : State) (f : RegFile) (b : Bool) (r v : Byte) (ops : List Instr) (t u : State),
    exec (.wreg f b r v) s = .next t → LeavesAlone (f, r) ops t → execAll ops t = .next u →
    ∃ w, exec (.rreg f r) u = .next w ∧ w.response = .byte v

/-- WPORT (R76, D4): the two-step port write leaves what WREG leaves, but for the latch and the address write it
counts.  That WADDR counts one is the spec's decision D15 (log entry 9). -/
def Obligations.PortWriteIsWregWithTheLatchSet : Prop :=
  ∀ (s : State) (f : RegFile) (b : Bool) (a v : Byte), ∃ t u,
    execAll (Pseudo.wport f b a v).expand s = .next t ∧ exec (.wreg f b a v) s = .next u ∧
    t.latch f = a ∧ (∀ g, g ≠ f → t.latch g = s.latch g) ∧
    t = { u with
      latchP := t.latchP
      latchS := t.latchS
      stats := { u.stats with addrWrites := u.stats.addrWrites + 1 } }

/-! ### RUN -/

/-- RUN completes on every non-negative operand in every state, and writes only `usec_acc`, the timers' `acc`, `counter` and
`elapsed`, `sample_acc` and the response; it sets overflow flags and clears none (R140).  That RUN counts
no generated samples is the spec's D16, that a negative operand is refused is D13 (log entry 10). -/
def Obligations.RunCompletesAndItsFrame : Prop :=
  (∀ (s : State) (t : Rat), 0 ≤ t → ∃ u, exec (.run t) s = .next u ∧
    SameShadow s u ∧ SameLatches s u ∧ u.stats = s.stats ∧ u.coreLog = s.coreLog ∧ u.sampleRate = s.sampleRate ∧
    SameHostSide s u ∧
    (∀ i, u.timer i =
      { s.timer i with
        acc := (u.timer i).acc
        counter := (u.timer i).counter
        elapsed := (u.timer i).elapsed } ∧
      ((s.timer i).elapsed = true → (u.timer i).elapsed = true) ∧
      ((s.timer i).enabled = false → u.timer i = { s.timer i with acc := (u.timer i).acc }))) ∧
  (∀ (s : State) (t : Rat), t < 0 → exec (.run t) s = .refused (.negativeElapsed t))

/-- RUN's timer part (R141): with `u = usec_acc + t` exactly `m = floor(u / TICK_US)` shell ticks happen, each giving `TICK_US`
microseconds to both timers, and `usec_acc` ends at `u - m * TICK_US`, in [0, TICK_US).  The value of `TICK_US` is a parameter
(D10); the arithmetic is exact (D11). -/
def Obligations.RunPerformsTheShellTicksDue : Prop :=
  ∀ (s : State) (t : Rat), s.Inv → 0 ≤ t → ∃ (u : State) (m : Nat), exec (.run t) s = .next u ∧
    (m : Rat) * s.cfg.tickUs ≤ s.usecAcc + t ∧ s.usecAcc + t < ((m : Rat) + 1) * s.cfg.tickUs ∧
    u.usecAcc = s.usecAcc + t - m * s.cfg.tickUs ∧ 0 ≤ u.usecAcc ∧ u.usecAcc < s.cfg.tickUs ∧
    (∀ i, u.timer i = (Timer.tick s.cfg.tickUs)^[m] (s.timer i))

/-- RUN's sample part (R142): the response is the whole frames due at the sample rate for this operand, and the fraction is
carried.  The formula is the spec's decision D12 (log entry 11), the exact arithmetic D11 (log entry 8). -/
def Obligations.RunReportsTheFramesDue : Prop :=
  ∀ (s : State) (t : Rat), s.Inv → 0 ≤ t → ∃ (u : State) (n : Nat), exec (.run t) s = .next u ∧
    u.response = .count n ∧
    (n : Rat) ≤ s.sampleAcc + t * s.sampleRate / 1000000 ∧ s.sampleAcc + t * s.sampleRate / 1000000 < (n : Rat) + 1 ∧
    u.sampleAcc = s.sampleAcc + t * s.sampleRate / 1000000 - n

/-- RUN is additive (R147, derived): `RUN a` then `RUN b` leaves exactly the state `RUN (a+b)` leaves, and the two responses sum
to the one.  It rests on the formula of the spec's decision D12 (log entry 11) and on exact arithmetic, D11 (log entry 8). -/
def Obligations.RunIsAdditive : Prop :=
  ∀ (s : State) (a b : Rat), s.Inv → 0 ≤ a → 0 ≤ b →
    ∃ (s₁ s₂ : State) (n₁ n₂ : Nat), exec (.run a) s = .next s₁ ∧ exec (.run b) s₁ = .next s₂ ∧
      s₁.response = .count n₁ ∧ s₂.response = .count n₂ ∧
      exec (.run (a + b)) s = .next { s₂ with response := .count (n₁ + n₂) }

/-- No drift (R142, corner case 3, derived): the responses of any sequence of RUNs sum to the whole frames due for the sum of
their operands; so increments that sum to exactly one second return the sample rate in total.  It rests on the formula of
the spec's decision D12 (log entry 11) and on exact arithmetic, D11 (log entry 8). -/
def Obligations.SampleCountsDoNotDrift : Prop :=
  ∀ (s : State) (ts : List Rat), s.Inv → (∀ t ∈ ts, 0 ≤ t) →
    (∃ u, execAll (ts.map Instr.run) s = .next u) ∧
    (((responses (ts.map Instr.run) s).map Response.frames).sum : Int) =
      ⌊s.sampleAcc + ts.sum * s.sampleRate / 1000000⌋ ∧
    (ts.sum = 1000000 → ((responses (ts.map Instr.run) s).map Response.frames).sum = s.sampleRate)

/-- When an enabled timer's overflow first shows (R189, R184; derived, with `TICK_US` = 80 of D10): from `counter` = c the flag
is set by a RUN exactly when its operand reaches `(256 - c) * rate - acc - usec_acc`, a time in the half-open interval
((255 - c) * rate, (256 - c) * rate].  The rates are the spec's decision D8 (log entry 7). -/
def Obligations.FirstOverflowTime : Prop :=
  ∀ (s : State) (i : TimerId) (t : Rat), s.Inv → s.PhaseInv → s.cfg.tickUs = 80 → 0 ≤ t →
    (s.timer i).enabled = true → (s.timer i).elapsed = false →
    (0 ≤ (s.timer i).acc + s.usecAcc ∧ (s.timer i).acc + s.usecAcc < Config.timerRate i) ∧
    ∃ u, exec (.run t) s = .next u ∧
      ((u.timer i).elapsed = true ↔
        (256 - ((s.timer i).counter.toNat : Rat)) * Config.timerRate i - (s.timer i).acc - s.usecAcc ≤ t)

/-! ### RESET, RESETR, STATS -/

/-- RESET and RESETR (R143, R144): both files and all statistics zero, one `CoreReset` at the rate, the rate replaced by RESETR
only; latches, accumulators and timers kept, but for `counter` and `elapsed` under `SOFT_RESET_CLEARS_TIMERS`.  What it leaves
alone, and the switch, are D18 and D19; both values of the switch are covered. -/
def Obligations.SoftResetClearsShadowAndStatistics : Prop :=
  ∀ (s : State) (i : Instr) (rate : Nat), (i = .reset ∧ rate = s.sampleRate ∨ i = .resetr rate) →
    ∃ t, exec i s = .next t ∧
      (∀ f a, t.shadowRead f a = 0) ∧ t.stats = ⟨0, 0, 0, 0⟩ ∧ t.sampleRate = rate ∧
      t.coreLog = s.coreLog ++ [.coreReset rate] ∧ t.response = .none ∧
      SameLatches s t ∧ t.sampleAcc = s.sampleAcc ∧ t.usecAcc = s.usecAcc ∧ SameHostSide s t ∧
      (∀ k, t.timer k =
        if s.cfg.softResetClearsTimers then { s.timer k with counter := 0, elapsed := false } else s.timer k)

/-- Two successive soft resets equal one, except for the second `CoreReset` (R182, derived; a soft reset is RESET or RESETR,
R180).  After either of them, RESET and RESETR at the rate now held change nothing but the log, whichever came first; and RESETR
at any rate `hz` changes the rate besides.  Both values of `SOFT_RESET_CLEARS_TIMERS` are covered; what a reset leaves alone is
the spec's D18 and D19. -/
def Obligations.SecondSoftResetOnlyLogs : Prop :=
  ∀ (s : State) (i : Instr) (rate : Nat), (i = .reset ∧ rate = s.sampleRate ∨ i = .resetr rate) →
    ∃ t, exec i s = .next t ∧ t.sampleRate = rate ∧
      exec .reset t = .next { t with coreLog := t.coreLog ++ [.coreReset rate] } ∧
      exec (.resetr rate) t = .next { t with coreLog := t.coreLog ++ [.coreReset rate] } ∧
      (∀ hz, exec (.resetr hz) t = .next { t with sampleRate := hz, coreLog := t.coreLog ++ [.coreReset hz] })

/-- STATS (R145): responds a copy of the four counters; read-only, no side effects. -/
def Obligations.StatsReadsTheRecord : Prop :=
  ∀ s : State, ∃ t, exec .stats s = .next t ∧
    t.response = .stats s.stats.dataWrites s.stats.addrWrites s.stats.statusReads s.stats.samplesGenerated ∧
    t = { s with response := t.response } ∧ SameShadow s t

/-! ### Rules over all operations -/

/-- Exactly the events R52 names, at the end of the log and in order: one for every WREG and WDATA, one for every reset, none
for any other operation; so the log is append-only (R27). -/
def Obligations.CoreLogGainsExactlyTheEventsNamed : Prop :=
  ∀ (i : Instr) (s t : State), exec i s = .next t →
    t.coreLog = s.coreLog ++
      (match i with
        | .wreg f false r v => [.coreWrite (coreIndex f r) v]
        | .wreg f true r v => [.coreWriteBuffered (coreIndex f r) v]
        | .wdata f false v => [.coreWrite (coreIndex f (s.latch f)) v]
        | .wdata f true v => [.coreWriteBuffered (coreIndex f (s.latch f)) v]
        | .reset => [.coreReset s.sampleRate]
        | .resetr hz => [.coreReset hz]
        | .waddr _ _ | .rreg _ _ | .rstat | .run _ | .stats => [])

/-- The statistics after every operation (R24, V48).  That WADDR counts and that nothing counts `samples_generated` are D15 and
D16. -/
def Obligations.StatisticsCountTheEventsNamed : Prop :=
  ∀ (i : Instr) (s t : State), exec i s = .next t →
    t.stats =
      (match i with
        | .waddr _ _ => { s.stats with addrWrites := s.stats.addrWrites + 1 }
        | .wdata _ _ _ | .wreg _ _ _ _ => { s.stats with dataWrites := s.stats.dataWrites + 1 }
        | .rstat => { s.stats with statusReads := s.stats.statusReads + 1 }
        | .reset | .resetr _ => ⟨0, 0, 0, 0⟩
        | .rreg _ _ | .run _ | .stats => s.stats)

/-- Which operations write which component of the block, but for the timers (the table of R10; R20, R22, R23): a shadow byte
only the write that stores to it and the resets, a latch only WADDR of its file, the sample rate only RESETR, the accumulators
only RUN; and no operation touches the parameters or the commands still pending, which are the MODEL's fields (log entries 1 and
4).  That a reset leaves latches and accumulators alone is the spec's D19. -/
def Obligations.OnlyTheNamedOperationsWriteEachRegister : Prop :=
  ∀ (i : Instr) (s t : State), exec i s = .next t →
    (∀ f a, t.shadowRead f a ≠ s.shadowRead f a →
      (∃ v, storeOf s i = some ((f, a), v) ∧ t.shadowRead f a = v) ∨
      ((i = .reset ∨ ∃ hz, i = .resetr hz) ∧ t.shadowRead f a = 0)) ∧
    (∀ f, t.latch f ≠ s.latch f → i = .waddr f (t.latch f)) ∧
    (t.sampleRate ≠ s.sampleRate → i = .resetr t.sampleRate) ∧
    (t.sampleAcc ≠ s.sampleAcc ∨ t.usecAcc ≠ s.usecAcc → ∃ e, i = .run e) ∧
    SameHostSide s t

/-- Which operations write which attribute of a timer (the table of R10; R11 to R18, R37): `rate` none; `enabled` and `masked`
only a control write with ACK = 0; `preset` only a counter-register write under its switch (D9); `counter` only RUN of an
enabled timer, a counter-register write, and a soft reset under its switch (D18); `acc` only RUN; `elapsed` is set only by RUN
of an enabled timer and cleared only by an acknowledge write and a soft reset under its switch. -/
def Obligations.OnlyTheNamedOperationsWriteEachTimerAttribute : Prop :=
  ∀ (i : Instr) (s t : State) (k : TimerId), exec i s = .next t →
    (t.timer k).rate = (s.timer k).rate ∧
    ((t.timer k).enabled ≠ (s.timer k).enabled ∨ (t.timer k).masked ≠ (s.timer k).masked →
      ∃ v, storeOf s i = some ((.primary, 0x04#8), v) ∧ v.getLsbD 7 = false) ∧
    ((t.timer k).preset ≠ (s.timer k).preset →
      s.cfg.regWriteLoadsPreset = true ∧
      storeOf s i = some ((.primary, counterReg k), (t.timer k).preset)) ∧
    ((t.timer k).counter ≠ (s.timer k).counter →
      ((∃ e, i = .run e) ∧ (s.timer k).enabled = true) ∨
      storeOf s i = some ((.primary, counterReg k), (t.timer k).counter) ∨
      ((i = .reset ∨ ∃ hz, i = .resetr hz) ∧ s.cfg.softResetClearsTimers = true ∧ (t.timer k).counter = 0)) ∧
    ((t.timer k).acc ≠ (s.timer k).acc → ∃ e, i = .run e) ∧
    ((s.timer k).elapsed = false → (t.timer k).elapsed = true → (∃ e, i = .run e) ∧ (s.timer k).enabled = true) ∧
    ((s.timer k).elapsed = true → (t.timer k).elapsed = false →
      (∃ v, storeOf s i = some ((.primary, 0x04#8), v) ∧ v.getLsbD 7 = true) ∨
      ((i = .reset ∨ ∃ hz, i = .resetr hz) ∧ s.cfg.softResetClearsTimers = true))

/-- The status byte cannot depend on the shadow's contents, the statistics, the sample rate and its fraction, or the log: two
states that agree on the parameters, the timers, `usec_acc` and the latches still agree after any operations (R13, R32,
R188).  That both its bits pass through their masks is conflict C4 and the spec's decision D21. -/
def Obligations.StatusIgnoresEverythingButTheTimeline : Prop :=
  ∀ (ops : List Instr) (s₁ s₂ t₁ : State), SameTimeline s₁ s₂ → execAll ops s₁ = .next t₁ →
    ∃ t₂, execAll ops s₂ = .next t₂ ∧ SameTimeline t₁ t₂ ∧ t₂.statusByte = t₁.statusByte
end

