-- ==== Sys2Proof/Laws/Decode.lean ====
section
/-! SUPPORT. The fields of an encoded word, a word as its fields, and the mask test of each row of the opcode map said field by
field. -/

namespace Sys2Proof

/-! ### The opcode map -/

/-- The masks of different rows select different opcodes, so no two rows match one word (R65). -/
theorem opcodeRows_disjoint :
    opcodeRows.Pairwise fun a b => a.maskBits &&& b.maskBits &&& (a.matchBits ^^^ b.matchBits) ≠ 0#32 := by decide

theorem mem_opcodeRows (o : Opcode) : o ∈ opcodeRows := by cases o <;> decide

theorem opcodeOfCode_code (o : Opcode) : opcodeOfCode o.code = some o := by cases o <;> rfl

theorem opcodeOfCode_eq_some {op : BitVec 4} {o : Opcode} (h : opcodeOfCode op = some o) : op = o.code := by
  have all : ∀ (op : BitVec 4), (opcodeOfCode op).all fun o => decide (op = o.code) := by decide
  simpa [h] using all op

theorem opcodeOfCode_eq_none {op : BitVec 4} : opcodeOfCode op = none ↔ op = 0x0#4 ∨ 0xA#4 ≤ op := by
  revert op; decide

/-! ### Bits of a formatted word -/

theorem getLsbD_formatR (op : BitVec 4) (f b : Bool) (r d : Byte) (i : Nat) :
    (formatR op f b r d).getLsbD i =
      if i < 8 then d.getLsbD i else if i < 16 then r.getLsbD (i - 8) else if i < 26 then false
      else if i = 26 then b else if i = 27 then f else op.getLsbD (i - 28) := by
  unfold formatR
  simp only [BitVec.getLsbD_append, BitVec.getLsbD_ofBool, BitVec.getLsbD_zero]
  by_cases h₀ : i < 8
  · simp [h₀]
  by_cases h₁ : i < 16
  · simp [h₀, h₁, show i - 8 < 8 by omega]
  by_cases h₂ : i < 26
  · simp [h₀, h₁, h₂, show ¬i - 8 < 8 by omega, show i - 8 - 8 < 10 by omega]
  by_cases h₃ : i = 26
  · subst h₃; simp
  by_cases h₄ : i = 27
  · subst h₄; simp
  simp [h₀, h₁, h₂, h₃, h₄, show ¬i - 8 < 8 by omega, show ¬i - 8 - 8 < 10 by omega, show ¬i - 8 - 8 - 10 < 1 by omega,
    show ¬i - 8 - 8 - 10 - 1 < 1 by omega, show i - 8 - 8 - 10 - 1 - 1 = i - 28 by omega]

theorem getLsbD_formatI (op : BitVec 4) (imm : BitVec 28) (i : Nat) :
    (formatI op imm).getLsbD i = if i < 28 then imm.getLsbD i else op.getLsbD (i - 28) := by
  unfold formatI
  rw [BitVec.getLsbD_append]

theorem formatN_eq (op : BitVec 4) : formatN op = formatI op 0#28 := rfl

/-! ### Fields of a formatted word -/

section
variable (op : BitVec 4) (f b : Bool) (r d : Byte)

theorem opField_formatR : opField (formatR op f b r d) = op := by
  apply BitVec.eq_of_getLsbD_eq; intro i hi
  simp only [opField, getLsbD_formatR, BitVec.getLsbD_extractLsb']
  interval_cases i <;> simp

theorem fField_formatR : fField (formatR op f b r d) = f := by simp only [fField, getLsbD_formatR]; simp

theorem bField_formatR : bField (formatR op f b r d) = b := by simp only [bField, getLsbD_formatR]; simp

theorem zField_formatR : zField (formatR op f b r d) = 0#10 := by
  apply BitVec.eq_of_getLsbD_eq; intro i hi
  simp only [zField, getLsbD_formatR, BitVec.getLsbD_extractLsb']
  interval_cases i <;> simp

theorem regField_formatR : regField (formatR op f b r d) = r := by
  apply BitVec.eq_of_getLsbD_eq; intro i hi
  simp only [regField, getLsbD_formatR, BitVec.getLsbD_extractLsb']
  interval_cases i <;> simp

theorem dataField_formatR : dataField (formatR op f b r d) = d := by
  apply BitVec.eq_of_getLsbD_eq; intro i hi
  simp only [dataField, getLsbD_formatR, BitVec.getLsbD_extractLsb']
  interval_cases i <;> simp

end

theorem opField_formatI (op : BitVec 4) (imm : BitVec 28) : opField (formatI op imm) = op :=
  BitVec.extractLsb'_append_eq_left

theorem immField_formatI (op : BitVec 4) (imm : BitVec 28) : immField (formatI op imm) = imm :=
  BitVec.extractLsb'_append_eq_right

/-! ### A word as its fields -/

/-- A word whose `Z` field is 0 is the format-R word of its fields. -/
theorem formatR_fields {w : Word} (hz : zField w = 0#10) :
    formatR (opField w) (fField w) (bField w) (regField w) (dataField w) = w := by
  have hz' : ∀ i, w.getLsbD (16 + i) = true → ¬i < 10 := fun i hi hlt => by
    have := congrArg (·.getLsbD i) hz
    simp [zField, hlt, hi] at this
  apply BitVec.eq_of_getLsbD_eq; intro i hi
  simp only [getLsbD_formatR, opField, fField, bField, regField, dataField, BitVec.getLsbD_extractLsb']
  split
  · simp_all
  split
  · simp [show i - 8 < 8 by omega, show 8 + (i - 8) = i by omega]
  split
  · have := hz' (i - 16)
    rw [show 16 + (i - 16) = i by omega] at this
    cases hw : w.getLsbD i
    · rfl
    · exact absurd (show i - 16 < 10 by omega) (this hw)
  split
  · simp_all
  split
  · simp_all
  · simp [show i - 28 < 4 by omega, show 28 + (i - 28) = i by omega]

/-- Every word is the format-I word of its fields. -/
theorem formatI_fields (w : Word) : formatI (opField w) (immField w) = w := by
  apply BitVec.eq_of_getLsbD_eq; intro i hi
  simp only [getLsbD_formatI, opField, immField, BitVec.getLsbD_extractLsb']
  split
  · simp_all
  · simp [show i - 28 < 4 by omega, show 28 + (i - 28) = i by omega]

/-! ### The mask test, field by field -/

/-- What each row's mask asks of a word: its opcode, and zero in the row's must-be-zero fields (R62 to R65). -/
theorem matchesWord_iff (o : Opcode) (w : Word) :
    o.matchesWord w = true ↔ opField w = o.code ∧
      (match o with
        | .waddr | .rreg => zField w = 0#10 ∧ bField w = false ∧ dataField w = 0#8
        | .wdata => zField w = 0#10 ∧ regField w = 0#8
        | .wreg => zField w = 0#10
        | .rstat | .reset | .stats => immField w = 0#28
        | .run | .resetr => True) := by
  have ones4 (x : BitVec 4) : x &&& 0xF#4 = x := BitVec.and_allOnes
  have ones8 (x : BitVec 8) : x &&& 0xFF#8 = x := BitVec.and_allOnes
  have ones10 (x : BitVec 10) : x &&& 0x3FF#10 = x := BitVec.and_allOnes
  have ones28 (x : BitVec 28) : x &&& 0xFFFFFFF#28 = x := BitVec.and_allOnes
  unfold Opcode.matchesWord
  rw [decide_eq_true_iff]
  constructor
  · intro h
    have hop : opField w &&& opField o.maskBits = opField o.matchBits := by
      rw [← h]; exact BitVec.extractLsb'_and.symm
    have hz : zField w &&& zField o.maskBits = zField o.matchBits := by
      rw [← h]; exact BitVec.extractLsb'_and.symm
    have hr : regField w &&& regField o.maskBits = regField o.matchBits := by
      rw [← h]; exact BitVec.extractLsb'_and.symm
    have hd : dataField w &&& dataField o.maskBits = dataField o.matchBits := by
      rw [← h]; exact BitVec.extractLsb'_and.symm
    have hi : immField w &&& immField o.maskBits = immField o.matchBits := by
      rw [← h]; exact BitVec.extractLsb'_and.symm
    have hb : (bField w && bField o.maskBits) = bField o.matchBits := by
      rw [← h]; exact BitVec.getLsbD_and.symm
    refine ⟨(ones4 _).symm.trans (by cases o <;> exact hop), ?_⟩
    cases o
    · exact ⟨(ones10 _).symm.trans hz, by simpa [bField, Opcode.maskBits, Opcode.matchBits] using hb, (ones8 _).symm.trans hd⟩
    · exact ⟨(ones10 _).symm.trans hz, (ones8 _).symm.trans hr⟩
    · exact (ones10 _).symm.trans hz
    · exact ⟨(ones10 _).symm.trans hz, by simpa [bField, Opcode.maskBits, Opcode.matchBits] using hb, (ones8 _).symm.trans hd⟩
    · exact (ones28 _).symm.trans hi
    · trivial
    · exact (ones28 _).symm.trans hi
    · trivial
    · exact (ones28 _).symm.trans hi
  · rintro ⟨hop, h⟩
    have hI := formatI_fields w
    have hR := @formatR_fields w
    rw [hop] at hI hR
    cases o <;> simp only at h
    all_goals apply BitVec.eq_of_getLsbD_eq; intro i hi
    · rw [← hR h.1, h.2.1, h.2.2]
      simp only [BitVec.getLsbD_and, getLsbD_formatR, Opcode.maskBits, Opcode.matchBits, Opcode.code]
      interval_cases i <;> simp
    · rw [← hR h.1, h.2]
      simp only [BitVec.getLsbD_and, getLsbD_formatR, Opcode.maskBits, Opcode.matchBits, Opcode.code]
      interval_cases i <;> simp
    · rw [← hR h]
      simp only [BitVec.getLsbD_and, getLsbD_formatR, Opcode.maskBits, Opcode.matchBits, Opcode.code]
      interval_cases i <;> simp
    · rw [← hR h.1, h.2.1, h.2.2]
      simp only [BitVec.getLsbD_and, getLsbD_formatR, Opcode.maskBits, Opcode.matchBits, Opcode.code]
      interval_cases i <;> simp
    all_goals
      first
        | rw [← hI, h]
        | rw [← hI]
      simp only [BitVec.getLsbD_and, getLsbD_formatI, Opcode.maskBits, Opcode.matchBits, Opcode.code]
      interval_cases i <;> simp

/-! ### The decoder -/

/-- All the decoder can answer (R74). -/
theorem decode_cases (w : Word) :
    (∃ o : Opcode, opField w = o.code ∧ o.matchesWord w = true ∧ decode w = .ok (o.operation w)) ∨
    (∃ o : Opcode, opField w = o.code ∧ o.matchesWord w = false ∧ decode w = .error (.mustBeZero o)) ∨
    (opcodeOfCode (opField w) = none ∧ decode w = .error (.reservedOpcode (opField w))) := by
  cases h : opcodeOfCode (opField w) with
  | none => exact .inr (.inr ⟨rfl, by simp [decode, h]⟩)
  | some o =>
    have hop := opcodeOfCode_eq_some h
    cases hm : o.matchesWord w
    · exact .inr (.inl ⟨o, hop, hm, by simp [decode, h, hm]⟩)
    · exact .inl ⟨o, hop, hm, by simp [decode, h, hm]⟩

/-- The decoder answers with the row the opcode selects, if the word matches it. -/
theorem decode_of_matchesWord {o : Opcode} {w : Word} (h : o.matchesWord w = true) : decode w = .ok (o.operation w) := by
  have hop : opField w = o.code := ((matchesWord_iff o w).1 h).1
  simp [decode, hop, opcodeOfCode_code, h]

/-! ### RUN's immediate (R67) -/

theorem usecOfImm_eq (imm : BitVec 28) : usecOfImm imm = (imm.toNat : Rat) / 256 := Rat.mkRat_eq_div imm.toNat 256

theorem usecOfImm_mul (imm : BitVec 28) : usecOfImm imm * 256 = ((imm.toNat : Int) : Rat) := by
  rw [usecOfImm_eq]; push_cast; ring

theorem immOfUsec_usecOfImm (imm : BitVec 28) : immOfUsec (usecOfImm imm) = imm := by
  rw [immOfUsec, usecOfImm_mul, Rat.num_intCast, Int.toNat_natCast, BitVec.ofNat_toNat, BitVec.setWidth_eq]

end Sys2Proof
end

