-- ==== Sys2Proof/Laws/State.lean ====
section
/-! SUPPORT. One lemma for each field and each update of State, so that no later proof unfolds a record update. -/

namespace Sys2Proof.Machine

variable (s : State)

/-! ### Accessors -/

@[simp] theorem State.timer_one : s.timer .one = s.timer1 := rfl
@[simp] theorem State.timer_two : s.timer .two = s.timer2 := rfl
@[simp] theorem State.latch_primary : s.latch .primary = s.latchP := rfl
@[simp] theorem State.latch_secondary : s.latch .secondary = s.latchS := rfl
@[simp] theorem State.shadow_primary : s.shadow .primary = s.shadowP := rfl
@[simp] theorem State.shadow_secondary : s.shadow .secondary = s.shadowS := rfl

/-! ### emit -/

@[simp] theorem State.emit_cfg (e : CoreEvent) : (s.emit e).cfg = s.cfg := rfl
@[simp] theorem State.emit_timer1 (e : CoreEvent) : (s.emit e).timer1 = s.timer1 := rfl
@[simp] theorem State.emit_timer2 (e : CoreEvent) : (s.emit e).timer2 = s.timer2 := rfl
@[simp] theorem State.emit_shadowP (e : CoreEvent) : (s.emit e).shadowP = s.shadowP := rfl
@[simp] theorem State.emit_shadowS (e : CoreEvent) : (s.emit e).shadowS = s.shadowS := rfl
@[simp] theorem State.emit_latchP (e : CoreEvent) : (s.emit e).latchP = s.latchP := rfl
@[simp] theorem State.emit_latchS (e : CoreEvent) : (s.emit e).latchS = s.latchS := rfl
@[simp] theorem State.emit_sampleRate (e : CoreEvent) : (s.emit e).sampleRate = s.sampleRate := rfl
@[simp] theorem State.emit_stats (e : CoreEvent) : (s.emit e).stats = s.stats := rfl
@[simp] theorem State.emit_sampleAcc (e : CoreEvent) : (s.emit e).sampleAcc = s.sampleAcc := rfl
@[simp] theorem State.emit_usecAcc (e : CoreEvent) : (s.emit e).usecAcc = s.usecAcc := rfl
@[simp] theorem State.emit_coreLog (e : CoreEvent) : (s.emit e).coreLog = s.coreLog ++ [e] := rfl
@[simp] theorem State.emit_response (e : CoreEvent) : (s.emit e).response = s.response := rfl
@[simp] theorem State.emit_pending (e : CoreEvent) : (s.emit e).pending = s.pending := rfl
@[simp] theorem State.emit_timer (e : CoreEvent) (i : TimerId) : (s.emit e).timer i = s.timer i := by cases i <;> rfl
@[simp] theorem State.emit_latch (e : CoreEvent) (f : RegFile) : (s.emit e).latch f = s.latch f := by cases f <;> rfl
@[simp] theorem State.emit_shadow (e : CoreEvent) (f : RegFile) : (s.emit e).shadow f = s.shadow f := by cases f <;> rfl

/-! ### respond -/

@[simp] theorem State.respond_cfg (r : Response) : (s.respond r).cfg = s.cfg := rfl
@[simp] theorem State.respond_timer1 (r : Response) : (s.respond r).timer1 = s.timer1 := rfl
@[simp] theorem State.respond_timer2 (r : Response) : (s.respond r).timer2 = s.timer2 := rfl
@[simp] theorem State.respond_shadowP (r : Response) : (s.respond r).shadowP = s.shadowP := rfl
@[simp] theorem State.respond_shadowS (r : Response) : (s.respond r).shadowS = s.shadowS := rfl
@[simp] theorem State.respond_latchP (r : Response) : (s.respond r).latchP = s.latchP := rfl
@[simp] theorem State.respond_latchS (r : Response) : (s.respond r).latchS = s.latchS := rfl
@[simp] theorem State.respond_sampleRate (r : Response) : (s.respond r).sampleRate = s.sampleRate := rfl
@[simp] theorem State.respond_stats (r : Response) : (s.respond r).stats = s.stats := rfl
@[simp] theorem State.respond_sampleAcc (r : Response) : (s.respond r).sampleAcc = s.sampleAcc := rfl
@[simp] theorem State.respond_usecAcc (r : Response) : (s.respond r).usecAcc = s.usecAcc := rfl
@[simp] theorem State.respond_coreLog (r : Response) : (s.respond r).coreLog = s.coreLog := rfl
@[simp] theorem State.respond_response (r : Response) : (s.respond r).response = r := rfl
@[simp] theorem State.respond_pending (r : Response) : (s.respond r).pending = s.pending := rfl
@[simp] theorem State.respond_timer (r : Response) (i : TimerId) : (s.respond r).timer i = s.timer i := by cases i <;> rfl
@[simp] theorem State.respond_latch (r : Response) (f : RegFile) : (s.respond r).latch f = s.latch f := by cases f <;> rfl
@[simp] theorem State.respond_shadow (r : Response) (f : RegFile) : (s.respond r).shadow f = s.shadow f := by cases f <;> rfl

/-! ### countDataWrite -/

@[simp] theorem State.countDataWrite_cfg : (s.countDataWrite).cfg = s.cfg := rfl
@[simp] theorem State.countDataWrite_timer1 : (s.countDataWrite).timer1 = s.timer1 := rfl
@[simp] theorem State.countDataWrite_timer2 : (s.countDataWrite).timer2 = s.timer2 := rfl
@[simp] theorem State.countDataWrite_shadowP : (s.countDataWrite).shadowP = s.shadowP := rfl
@[simp] theorem State.countDataWrite_shadowS : (s.countDataWrite).shadowS = s.shadowS := rfl
@[simp] theorem State.countDataWrite_latchP : (s.countDataWrite).latchP = s.latchP := rfl
@[simp] theorem State.countDataWrite_latchS : (s.countDataWrite).latchS = s.latchS := rfl
@[simp] theorem State.countDataWrite_sampleRate : (s.countDataWrite).sampleRate = s.sampleRate := rfl
@[simp] theorem State.countDataWrite_stats : (s.countDataWrite).stats =
    { s.stats with dataWrites := s.stats.dataWrites + 1 } := rfl
@[simp] theorem State.countDataWrite_sampleAcc : (s.countDataWrite).sampleAcc = s.sampleAcc := rfl
@[simp] theorem State.countDataWrite_usecAcc : (s.countDataWrite).usecAcc = s.usecAcc := rfl
@[simp] theorem State.countDataWrite_coreLog : (s.countDataWrite).coreLog = s.coreLog := rfl
@[simp] theorem State.countDataWrite_response : (s.countDataWrite).response = s.response := rfl
@[simp] theorem State.countDataWrite_pending : (s.countDataWrite).pending = s.pending := rfl
@[simp] theorem State.countDataWrite_timer (i : TimerId) : (s.countDataWrite).timer i = s.timer i := by cases i <;> rfl
@[simp] theorem State.countDataWrite_latch (f : RegFile) : (s.countDataWrite).latch f = s.latch f := by cases f <;> rfl
@[simp] theorem State.countDataWrite_shadow (f : RegFile) : (s.countDataWrite).shadow f = s.shadow f := by cases f <;> rfl

/-! ### countAddrWrite -/

@[simp] theorem State.countAddrWrite_cfg : (s.countAddrWrite).cfg = s.cfg := rfl
@[simp] theorem State.countAddrWrite_timer1 : (s.countAddrWrite).timer1 = s.timer1 := rfl
@[simp] theorem State.countAddrWrite_timer2 : (s.countAddrWrite).timer2 = s.timer2 := rfl
@[simp] theorem State.countAddrWrite_shadowP : (s.countAddrWrite).shadowP = s.shadowP := rfl
@[simp] theorem State.countAddrWrite_shadowS : (s.countAddrWrite).shadowS = s.shadowS := rfl
@[simp] theorem State.countAddrWrite_latchP : (s.countAddrWrite).latchP = s.latchP := rfl
@[simp] theorem State.countAddrWrite_latchS : (s.countAddrWrite).latchS = s.latchS := rfl
@[simp] theorem State.countAddrWrite_sampleRate : (s.countAddrWrite).sampleRate = s.sampleRate := rfl
@[simp] theorem State.countAddrWrite_stats : (s.countAddrWrite).stats =
    { s.stats with addrWrites := s.stats.addrWrites + 1 } := rfl
@[simp] theorem State.countAddrWrite_sampleAcc : (s.countAddrWrite).sampleAcc = s.sampleAcc := rfl
@[simp] theorem State.countAddrWrite_usecAcc : (s.countAddrWrite).usecAcc = s.usecAcc := rfl
@[simp] theorem State.countAddrWrite_coreLog : (s.countAddrWrite).coreLog = s.coreLog := rfl
@[simp] theorem State.countAddrWrite_response : (s.countAddrWrite).response = s.response := rfl
@[simp] theorem State.countAddrWrite_pending : (s.countAddrWrite).pending = s.pending := rfl
@[simp] theorem State.countAddrWrite_timer (i : TimerId) : (s.countAddrWrite).timer i = s.timer i := by cases i <;> rfl
@[simp] theorem State.countAddrWrite_latch (f : RegFile) : (s.countAddrWrite).latch f = s.latch f := by cases f <;> rfl
@[simp] theorem State.countAddrWrite_shadow (f : RegFile) : (s.countAddrWrite).shadow f = s.shadow f := by cases f <;> rfl

/-! ### countStatusRead -/

@[simp] theorem State.countStatusRead_cfg : (s.countStatusRead).cfg = s.cfg := rfl
@[simp] theorem State.countStatusRead_timer1 : (s.countStatusRead).timer1 = s.timer1 := rfl
@[simp] theorem State.countStatusRead_timer2 : (s.countStatusRead).timer2 = s.timer2 := rfl
@[simp] theorem State.countStatusRead_shadowP : (s.countStatusRead).shadowP = s.shadowP := rfl
@[simp] theorem State.countStatusRead_shadowS : (s.countStatusRead).shadowS = s.shadowS := rfl
@[simp] theorem State.countStatusRead_latchP : (s.countStatusRead).latchP = s.latchP := rfl
@[simp] theorem State.countStatusRead_latchS : (s.countStatusRead).latchS = s.latchS := rfl
@[simp] theorem State.countStatusRead_sampleRate : (s.countStatusRead).sampleRate = s.sampleRate := rfl
@[simp] theorem State.countStatusRead_stats : (s.countStatusRead).stats =
    { s.stats with statusReads := s.stats.statusReads + 1 } := rfl
@[simp] theorem State.countStatusRead_sampleAcc : (s.countStatusRead).sampleAcc = s.sampleAcc := rfl
@[simp] theorem State.countStatusRead_usecAcc : (s.countStatusRead).usecAcc = s.usecAcc := rfl
@[simp] theorem State.countStatusRead_coreLog : (s.countStatusRead).coreLog = s.coreLog := rfl
@[simp] theorem State.countStatusRead_response : (s.countStatusRead).response = s.response := rfl
@[simp] theorem State.countStatusRead_pending : (s.countStatusRead).pending = s.pending := rfl
@[simp] theorem State.countStatusRead_timer (i : TimerId) : (s.countStatusRead).timer i = s.timer i := by cases i <;> rfl
@[simp] theorem State.countStatusRead_latch (f : RegFile) : (s.countStatusRead).latch f = s.latch f := by cases f <;> rfl
@[simp] theorem State.countStatusRead_shadow (f : RegFile) : (s.countStatusRead).shadow f = s.shadow f := by cases f <;> rfl

/-! ### clearStats -/

@[simp] theorem State.clearStats_cfg : (s.clearStats).cfg = s.cfg := rfl
@[simp] theorem State.clearStats_timer1 : (s.clearStats).timer1 = s.timer1 := rfl
@[simp] theorem State.clearStats_timer2 : (s.clearStats).timer2 = s.timer2 := rfl
@[simp] theorem State.clearStats_shadowP : (s.clearStats).shadowP = s.shadowP := rfl
@[simp] theorem State.clearStats_shadowS : (s.clearStats).shadowS = s.shadowS := rfl
@[simp] theorem State.clearStats_latchP : (s.clearStats).latchP = s.latchP := rfl
@[simp] theorem State.clearStats_latchS : (s.clearStats).latchS = s.latchS := rfl
@[simp] theorem State.clearStats_sampleRate : (s.clearStats).sampleRate = s.sampleRate := rfl
@[simp] theorem State.clearStats_stats : (s.clearStats).stats = Stats.zero := rfl
@[simp] theorem State.clearStats_sampleAcc : (s.clearStats).sampleAcc = s.sampleAcc := rfl
@[simp] theorem State.clearStats_usecAcc : (s.clearStats).usecAcc = s.usecAcc := rfl
@[simp] theorem State.clearStats_coreLog : (s.clearStats).coreLog = s.coreLog := rfl
@[simp] theorem State.clearStats_response : (s.clearStats).response = s.response := rfl
@[simp] theorem State.clearStats_pending : (s.clearStats).pending = s.pending := rfl
@[simp] theorem State.clearStats_timer (i : TimerId) : (s.clearStats).timer i = s.timer i := by cases i <;> rfl
@[simp] theorem State.clearStats_latch (f : RegFile) : (s.clearStats).latch f = s.latch f := by cases f <;> rfl
@[simp] theorem State.clearStats_shadow (f : RegFile) : (s.clearStats).shadow f = s.shadow f := by cases f <;> rfl

/-! ### shadowReset -/

@[simp] theorem State.shadowReset_cfg : (s.shadowReset).cfg = s.cfg := rfl
@[simp] theorem State.shadowReset_timer1 : (s.shadowReset).timer1 = s.timer1 := rfl
@[simp] theorem State.shadowReset_timer2 : (s.shadowReset).timer2 = s.timer2 := rfl
@[simp] theorem State.shadowReset_shadowP : (s.shadowReset).shadowP = Memory.cleared := rfl
@[simp] theorem State.shadowReset_shadowS : (s.shadowReset).shadowS = Memory.cleared := rfl
@[simp] theorem State.shadowReset_latchP : (s.shadowReset).latchP = s.latchP := rfl
@[simp] theorem State.shadowReset_latchS : (s.shadowReset).latchS = s.latchS := rfl
@[simp] theorem State.shadowReset_sampleRate : (s.shadowReset).sampleRate = s.sampleRate := rfl
@[simp] theorem State.shadowReset_stats : (s.shadowReset).stats = s.stats := rfl
@[simp] theorem State.shadowReset_sampleAcc : (s.shadowReset).sampleAcc = s.sampleAcc := rfl
@[simp] theorem State.shadowReset_usecAcc : (s.shadowReset).usecAcc = s.usecAcc := rfl
@[simp] theorem State.shadowReset_coreLog : (s.shadowReset).coreLog = s.coreLog := rfl
@[simp] theorem State.shadowReset_response : (s.shadowReset).response = s.response := rfl
@[simp] theorem State.shadowReset_pending : (s.shadowReset).pending = s.pending := rfl
@[simp] theorem State.shadowReset_timer (i : TimerId) : (s.shadowReset).timer i = s.timer i := by cases i <;> rfl
@[simp] theorem State.shadowReset_latch (f : RegFile) : (s.shadowReset).latch f = s.latch f := by cases f <;> rfl
@[simp] theorem State.shadowReset_shadow (f : RegFile) : s.shadowReset.shadow f = Memory.cleared := by cases f <;> rfl

/-! ### setLatch -/

@[simp] theorem State.setLatch_cfg (f : RegFile) (v : Byte) : (s.setLatch f v).cfg = s.cfg := by cases f <;> rfl
@[simp] theorem State.setLatch_timer1 (f : RegFile) (v : Byte) : (s.setLatch f v).timer1 = s.timer1 := by cases f <;> rfl
@[simp] theorem State.setLatch_timer2 (f : RegFile) (v : Byte) : (s.setLatch f v).timer2 = s.timer2 := by cases f <;> rfl
@[simp] theorem State.setLatch_shadowP (f : RegFile) (v : Byte) : (s.setLatch f v).shadowP = s.shadowP := by cases f <;> rfl
@[simp] theorem State.setLatch_shadowS (f : RegFile) (v : Byte) : (s.setLatch f v).shadowS = s.shadowS := by cases f <;> rfl
@[simp] theorem State.setLatch_sampleRate (f : RegFile) (v : Byte) : (s.setLatch f v).sampleRate = s.sampleRate := by cases f <;> rfl
@[simp] theorem State.setLatch_stats (f : RegFile) (v : Byte) : (s.setLatch f v).stats = s.stats := by cases f <;> rfl
@[simp] theorem State.setLatch_sampleAcc (f : RegFile) (v : Byte) : (s.setLatch f v).sampleAcc = s.sampleAcc := by cases f <;> rfl
@[simp] theorem State.setLatch_usecAcc (f : RegFile) (v : Byte) : (s.setLatch f v).usecAcc = s.usecAcc := by cases f <;> rfl
@[simp] theorem State.setLatch_coreLog (f : RegFile) (v : Byte) : (s.setLatch f v).coreLog = s.coreLog := by cases f <;> rfl
@[simp] theorem State.setLatch_response (f : RegFile) (v : Byte) : (s.setLatch f v).response = s.response := by cases f <;> rfl
@[simp] theorem State.setLatch_pending (f : RegFile) (v : Byte) : (s.setLatch f v).pending = s.pending := by cases f <;> rfl
@[simp] theorem State.setLatch_timer (f : RegFile) (v : Byte) (k : TimerId) : (s.setLatch f v).timer k = s.timer k := by
  cases f <;> cases k <;> rfl
@[simp] theorem State.setLatch_shadow (f : RegFile) (v : Byte) (k : RegFile) : (s.setLatch f v).shadow k = s.shadow k := by
  cases f <;> cases k <;> rfl
@[simp] theorem State.setLatch_latch_same (f : RegFile) (v : Byte) : (s.setLatch f v).latch f = v := by cases f <;> rfl
theorem State.setLatch_latch_ne (f : RegFile) (v : Byte) (k : RegFile) (h : k ≠ f) : (s.setLatch f v).latch k = s.latch k := by
  cases f <;> cases k <;> simp_all [State.setLatch]
@[simp] theorem State.setLatch_primary_latchP (v : Byte) : (s.setLatch .primary v).latchP = v := rfl
@[simp] theorem State.setLatch_primary_latchS (v : Byte) : (s.setLatch .primary v).latchS = s.latchS := rfl
@[simp] theorem State.setLatch_secondary_latchP (v : Byte) : (s.setLatch .secondary v).latchP = s.latchP := rfl
@[simp] theorem State.setLatch_secondary_latchS (v : Byte) : (s.setLatch .secondary v).latchS = v := rfl

/-! ### setTimer -/

@[simp] theorem State.setTimer_cfg (i : TimerId) (t : Timer) : (s.setTimer i t).cfg = s.cfg := by cases i <;> rfl
@[simp] theorem State.setTimer_shadowP (i : TimerId) (t : Timer) : (s.setTimer i t).shadowP = s.shadowP := by cases i <;> rfl
@[simp] theorem State.setTimer_shadowS (i : TimerId) (t : Timer) : (s.setTimer i t).shadowS = s.shadowS := by cases i <;> rfl
@[simp] theorem State.setTimer_latchP (i : TimerId) (t : Timer) : (s.setTimer i t).latchP = s.latchP := by cases i <;> rfl
@[simp] theorem State.setTimer_latchS (i : TimerId) (t : Timer) : (s.setTimer i t).latchS = s.latchS := by cases i <;> rfl
@[simp] theorem State.setTimer_sampleRate (i : TimerId) (t : Timer) : (s.setTimer i t).sampleRate = s.sampleRate := by cases i <;> rfl
@[simp] theorem State.setTimer_stats (i : TimerId) (t : Timer) : (s.setTimer i t).stats = s.stats := by cases i <;> rfl
@[simp] theorem State.setTimer_sampleAcc (i : TimerId) (t : Timer) : (s.setTimer i t).sampleAcc = s.sampleAcc := by cases i <;> rfl
@[simp] theorem State.setTimer_usecAcc (i : TimerId) (t : Timer) : (s.setTimer i t).usecAcc = s.usecAcc := by cases i <;> rfl
@[simp] theorem State.setTimer_coreLog (i : TimerId) (t : Timer) : (s.setTimer i t).coreLog = s.coreLog := by cases i <;> rfl
@[simp] theorem State.setTimer_response (i : TimerId) (t : Timer) : (s.setTimer i t).response = s.response := by cases i <;> rfl
@[simp] theorem State.setTimer_pending (i : TimerId) (t : Timer) : (s.setTimer i t).pending = s.pending := by cases i <;> rfl
@[simp] theorem State.setTimer_latch (i : TimerId) (t : Timer) (k : RegFile) : (s.setTimer i t).latch k = s.latch k := by
  cases i <;> cases k <;> rfl
@[simp] theorem State.setTimer_shadow (i : TimerId) (t : Timer) (k : RegFile) : (s.setTimer i t).shadow k = s.shadow k := by
  cases i <;> cases k <;> rfl
@[simp] theorem State.setTimer_timer_same (i : TimerId) (t : Timer) : (s.setTimer i t).timer i = t := by cases i <;> rfl
theorem State.setTimer_timer_ne (i : TimerId) (t : Timer) (k : TimerId) (h : k ≠ i) : (s.setTimer i t).timer k = s.timer k := by
  cases i <;> cases k <;> simp_all [State.setTimer]
@[simp] theorem State.setTimer_one_timer1 (t : Timer) : (s.setTimer .one t).timer1 = t := rfl
@[simp] theorem State.setTimer_one_timer2 (t : Timer) : (s.setTimer .one t).timer2 = s.timer2 := rfl
@[simp] theorem State.setTimer_two_timer1 (t : Timer) : (s.setTimer .two t).timer1 = s.timer1 := rfl
@[simp] theorem State.setTimer_two_timer2 (t : Timer) : (s.setTimer .two t).timer2 = t := rfl

/-! ### setShadow -/

@[simp] theorem State.setShadow_cfg (f : RegFile) (m : Memory) : (s.setShadow f m).cfg = s.cfg := by cases f <;> rfl
@[simp] theorem State.setShadow_timer1 (f : RegFile) (m : Memory) : (s.setShadow f m).timer1 = s.timer1 := by cases f <;> rfl
@[simp] theorem State.setShadow_timer2 (f : RegFile) (m : Memory) : (s.setShadow f m).timer2 = s.timer2 := by cases f <;> rfl
@[simp] theorem State.setShadow_latchP (f : RegFile) (m : Memory) : (s.setShadow f m).latchP = s.latchP := by cases f <;> rfl
@[simp] theorem State.setShadow_latchS (f : RegFile) (m : Memory) : (s.setShadow f m).latchS = s.latchS := by cases f <;> rfl
@[simp] theorem State.setShadow_sampleRate (f : RegFile) (m : Memory) : (s.setShadow f m).sampleRate = s.sampleRate := by cases f <;> rfl
@[simp] theorem State.setShadow_stats (f : RegFile) (m : Memory) : (s.setShadow f m).stats = s.stats := by cases f <;> rfl
@[simp] theorem State.setShadow_sampleAcc (f : RegFile) (m : Memory) : (s.setShadow f m).sampleAcc = s.sampleAcc := by cases f <;> rfl
@[simp] theorem State.setShadow_usecAcc (f : RegFile) (m : Memory) : (s.setShadow f m).usecAcc = s.usecAcc := by cases f <;> rfl
@[simp] theorem State.setShadow_coreLog (f : RegFile) (m : Memory) : (s.setShadow f m).coreLog = s.coreLog := by cases f <;> rfl
@[simp] theorem State.setShadow_response (f : RegFile) (m : Memory) : (s.setShadow f m).response = s.response := by cases f <;> rfl
@[simp] theorem State.setShadow_pending (f : RegFile) (m : Memory) : (s.setShadow f m).pending = s.pending := by cases f <;> rfl
@[simp] theorem State.setShadow_timer (f : RegFile) (m : Memory) (k : TimerId) : (s.setShadow f m).timer k = s.timer k := by
  cases f <;> cases k <;> rfl
@[simp] theorem State.setShadow_latch (f : RegFile) (m : Memory) (k : RegFile) : (s.setShadow f m).latch k = s.latch k := by
  cases f <;> cases k <;> rfl
@[simp] theorem State.setShadow_shadow_same (f : RegFile) (m : Memory) : (s.setShadow f m).shadow f = m := by cases f <;> rfl
theorem State.setShadow_shadow_ne (f : RegFile) (m : Memory) (k : RegFile) (h : k ≠ f) : (s.setShadow f m).shadow k = s.shadow k := by
  cases f <;> cases k <;> simp_all [State.setShadow]
@[simp] theorem State.setShadow_primary_shadowP (m : Memory) : (s.setShadow .primary m).shadowP = m := rfl
@[simp] theorem State.setShadow_primary_shadowS (m : Memory) : (s.setShadow .primary m).shadowS = s.shadowS := rfl
@[simp] theorem State.setShadow_secondary_shadowP (m : Memory) : (s.setShadow .secondary m).shadowP = s.shadowP := rfl
@[simp] theorem State.setShadow_secondary_shadowS (m : Memory) : (s.setShadow .secondary m).shadowS = m := rfl

/-! ### onTimer -/

@[simp] theorem State.onTimer_eq (i : TimerId) (g : Timer → Timer) : s.onTimer i g = s.setTimer i (g (s.timer i)) := rfl

/-! ### Reading the shadow -/

theorem State.shadowRead_eq (f : RegFile) (a : Byte) : s.shadowRead f a = (s.shadow f).read a.toNat := rfl

end Sys2Proof.Machine
end

