-- ==== Sys2Proof/Laws/Memory.lean ====
section
/-! SUPPORT. The shadow as memory: a read after a write, and that every memory operation keeps the canonical form. -/

namespace Sys2Proof.Machine

@[simp] theorem Memory.read_nil (a : Nat) : Memory.read [] a = 0#8 := rfl

@[simp] theorem Memory.read_cons (k : Nat) (v : Byte) (m : Memory) (a : Nat) :
    Memory.read ((k, v) :: m) a = if k = a then v else Memory.read m a := rfl

@[simp] theorem Memory.read_cleared (a : Nat) : Memory.cleared.read a = 0#8 := rfl

theorem Memory.cleared_wf : Memory.cleared.wf = true := rfl

theorem Memory.wfFrom_cons (lo k : Nat) (v : Byte) (m : Memory) :
    Memory.wfFrom lo ((k, v) :: m) = true ↔ lo ≤ k ∧ k < 256 ∧ v ≠ 0#8 ∧ Memory.wfFrom (k + 1) m = true := by
  simp only [Memory.wfFrom, Bool.and_eq_true, and_assoc]
  exact and_congr decide_eq_true_iff (and_congr decide_eq_true_iff (and_congr decide_eq_true_iff Iff.rfl))

/-- A canonical list is canonical from every lower address on. -/
theorem Memory.wfFrom_mono {lo lo' : Nat} (h : lo ≤ lo') {m : Memory} (hm : Memory.wfFrom lo' m = true) :
    Memory.wfFrom lo m = true := by
  cases m with
  | nil => rfl
  | cons c m =>
    obtain ⟨k, v⟩ := c
    rw [Memory.wfFrom_cons] at hm ⊢
    exact ⟨h.trans hm.1, hm.2⟩

/-! ### Reads after writes, in every list -/

theorem Memory.read_erase (m : Memory) (a b : Nat) :
    (m.erase a).read b = if a = b then 0#8 else m.read b := by
  induction m with
  | nil => simp [Memory.erase]
  | cons c m ih =>
    obtain ⟨k, u⟩ := c
    simp only [Memory.erase, Memory.read_cons]
    split <;> rename_i hk
    · subst hk
      rw [ih]
      split <;> rfl
    · rw [Memory.read_cons, ih]
      split <;> split <;> first | rfl | omega

theorem Memory.read_insert (m : Memory) (a : Nat) (v : Byte) (b : Nat)
    (hm : ∀ c ∈ m, c.1 ≠ a) : (m.insert a v).read b = if a = b then v else m.read b := by
  induction m with
  | nil => simp [Memory.insert]
  | cons c m ih =>
    obtain ⟨k, u⟩ := c
    have hk : k ≠ a := hm (k, u) (List.mem_cons_self ..)
    simp only [Memory.insert, Memory.read_cons]
    split
    · rfl
    · rw [Memory.read_cons, ih fun c hc => hm c (List.mem_cons_of_mem _ hc)]
      split <;> split <;> first | rfl | omega

theorem Memory.ne_of_mem_erase (m : Memory) (a : Nat) : ∀ c ∈ m.erase a, c.1 ≠ a := by
  induction m with
  | nil => simp [Memory.erase]
  | cons c m ih =>
    obtain ⟨k, u⟩ := c
    simp only [Memory.erase]
    split
    · exact ih
    · rename_i hk
      exact List.forall_mem_cons.2 ⟨hk, ih⟩

/-- What a read finds after a write, whatever the list. -/
theorem Memory.read_write (m : Memory) (a : Nat) (v : Byte) (b : Nat) :
    (m.write a v).read b = if a = b then v else m.read b := by
  unfold Memory.write Memory.unlisted
  split <;> rename_i hv
  · rw [hv, Memory.read_erase]
  · rw [Memory.read_insert _ _ _ _ (Memory.ne_of_mem_erase m a),
      Memory.read_erase]
    split <;> rfl

/-! ### The canonical form -/

theorem Memory.erase_wfFrom {lo : Nat} {m : Memory} (hm : Memory.wfFrom lo m = true) (a : Nat) :
    Memory.wfFrom lo (m.erase a) = true := by
  induction m generalizing lo with
  | nil => rfl
  | cons c m ih =>
    obtain ⟨k, u⟩ := c
    rw [Memory.wfFrom_cons] at hm
    simp only [Memory.erase]
    split
    · exact Memory.wfFrom_mono (by omega) (ih hm.2.2.2)
    · exact (Memory.wfFrom_cons ..).2 ⟨hm.1, hm.2.1, hm.2.2.1, ih hm.2.2.2⟩

theorem Memory.insert_wfFrom {lo a : Nat} {v : Byte} {m : Memory} (hm : Memory.wfFrom lo m = true) (hlo : lo ≤ a)
    (ha : a < 256) (hv : v ≠ 0#8) (hne : ∀ c ∈ m, c.1 ≠ a) : Memory.wfFrom lo (m.insert a v) = true := by
  induction m generalizing lo with
  | nil => exact (Memory.wfFrom_cons ..).2 ⟨hlo, ha, hv, rfl⟩
  | cons c m ih =>
    obtain ⟨k, u⟩ := c
    have hk : k ≠ a := hne (k, u) (List.mem_cons_self ..)
    rw [Memory.wfFrom_cons] at hm
    simp only [Memory.insert]
    split
    · exact (Memory.wfFrom_cons ..).2 ⟨hlo, ha, hv, (Memory.wfFrom_cons ..).2 ⟨by omega, hm.2⟩⟩
    · exact (Memory.wfFrom_cons ..).2
        ⟨hm.1, hm.2.1, hm.2.2.1, ih hm.2.2.2 (by omega) fun c hc => hne c (List.mem_cons_of_mem _ hc)⟩

/-- A write keeps the canonical form. -/
theorem Memory.write_wf {m : Memory} (hm : m.wf = true) (a v : Byte) : (m.write a.toNat v).wf = true := by
  unfold Memory.write Memory.unlisted
  split <;> rename_i hv
  · exact Memory.erase_wfFrom hm _
  · exact Memory.insert_wfFrom (Memory.erase_wfFrom hm _) (Nat.zero_le _) a.isLt hv (Memory.ne_of_mem_erase m _)

end Sys2Proof.Machine
end

