-- ==== Sys2Proof/Laws/Timer.lean ====
section
/-! SUPPORT. What each timer primitive can do, said once: its frame, and the loops of `tick` and `advance_timers` by the number of
their passes. -/

namespace Sys2Proof.Machine

variable (t : Timer)

/-! ### count -/

theorem Timer.count_of_disabled (h : t.enabled = false) : t.count = t := by simp [Timer.count, h]

theorem Timer.count_of_overflow (h : t.enabled = true) (hc : t.counter = 255#8) :
    t.count = { t with elapsed := true, counter := t.preset } := by simp [Timer.count, h, hc, Timer.raiseElapsed]

theorem Timer.count_of_step (h : t.enabled = true) (hc : t.counter ≠ 255#8) :
    t.count = { t with counter := t.counter + 1#8 } := by simp [Timer.count, h, hc]

/-- All a count step can do. -/
theorem Timer.count_cases :
    (t.enabled = false ∧ t.count = t) ∨
    (t.enabled = true ∧ t.counter = 255#8 ∧ t.count = { t with elapsed := true, counter := t.preset }) ∨
    (t.enabled = true ∧ t.counter ≠ 255#8 ∧ t.count = { t with counter := t.counter + 1#8 }) := by
  by_cases h : t.enabled = true
  · by_cases hc : t.counter = 255#8
    · exact .inr (.inl ⟨h, hc, t.count_of_overflow h hc⟩)
    · exact .inr (.inr ⟨h, hc, t.count_of_step h hc⟩)
  · exact .inl ⟨by simpa using h, t.count_of_disabled (by simpa using h)⟩

/-- A count step writes `counter` and `elapsed` only. -/
theorem Timer.count_eq : t.count = { t with counter := t.count.counter, elapsed := t.count.elapsed } := by
  rcases t.count_cases with ⟨-, h⟩ | ⟨-, -, h⟩ | ⟨-, -, h⟩ <;> rw [h]

@[simp] theorem Timer.count_enabled : t.count.enabled = t.enabled := by rw [Timer.count_eq]
@[simp] theorem Timer.count_masked : t.count.masked = t.masked := by rw [Timer.count_eq]
@[simp] theorem Timer.count_rate : t.count.rate = t.rate := by rw [Timer.count_eq]
@[simp] theorem Timer.count_preset : t.count.preset = t.preset := by rw [Timer.count_eq]
@[simp] theorem Timer.count_acc : t.count.acc = t.acc := by rw [Timer.count_eq]

/-- The overflow flag is sticky under count steps (R18). -/
theorem Timer.count_elapsed_mono (h : t.elapsed = true) : t.count.elapsed = true := by
  rcases t.count_cases with ⟨-, e⟩ | ⟨-, -, e⟩ | ⟨-, -, e⟩ <;> simp [e, h]

/-- A count step does not look at `acc`. -/
theorem Timer.count_setAcc (a : Rat) : Timer.count { t with acc := a } = { t.count with acc := a } := by
  simp only [Timer.count, Timer.raiseElapsed]
  split <;> [split; skip] <;> rfl

theorem Timer.iterate_count_setAcc (n : Nat) (a : Rat) :
    Timer.count^[n] { t with acc := a } = { Timer.count^[n] t with acc := a } := by
  induction n generalizing t with
  | zero => rfl
  | succ n ih => rw [Function.iterate_succ_apply, Function.iterate_succ_apply, Timer.count_setAcc, ih]

/-! ### The loops -/

/-- A property that one pass keeps holds after any number of them. -/
theorem iterate_induction {α : Type} {P : α → Prop} {g : α → α} (hg : ∀ x, P x → P (g x)) (n : Nat) {x : α} (hx : P x) :
    P (g^[n] x) := by
  induction n generalizing x with
  | zero => exact hx
  | succ n ih => exact ih (hg x hx)

/-- The number of passes is the whole part of the quotient. -/
theorem loopPasses_spec {x step : Rat} (hx : 0 ≤ x) (hs : 0 < step) :
    (loopPasses x step : Rat) * step ≤ x ∧ x < ((loopPasses x step : Rat) + 1) * step :=
  ⟨(le_div_iff₀ hs).1 (Nat.floor_le (div_nonneg hx hs.le)), (div_lt_iff₀ hs).1 (Nat.lt_floor_add_one _)⟩

/-- A number of passes with these two bounds is the number of passes. -/
theorem loopPasses_unique {x step : Rat} {n : Nat} (hs : 0 < step) (h₁ : (n : Rat) * step ≤ x)
    (h₂ : x < ((n : Rat) + 1) * step) : loopPasses x step = n :=
  (Nat.floor_eq_iff (div_nonneg ((mul_nonneg n.cast_nonneg hs.le).trans h₁) hs.le)).2
    ⟨(le_div_iff₀ hs).2 h₁, (div_lt_iff₀ hs).2 h₂⟩

/-- As many passes as the accumulator allows are all taken. -/
theorem Timer.drain_eq (n : Nat) (h : (n : Rat) * t.rate ≤ t.acc) :
    Timer.drain n t = Timer.count^[n] { t with acc := t.acc - n * t.rate } := by
  induction n generalizing t with
  | zero => simp [Timer.drain]
  | succ n ih =>
    push_cast at h ⊢
    have hn : (0 : Rat) ≤ n * t.rate := by positivity
    have hr : (t.rate : Rat) ≤ t.acc := by linarith
    have hc := ih (Timer.count { t with acc := t.acc - t.rate }) (by simp; linarith)
    rw [Timer.drain, if_pos hr, hc, Function.iterate_succ_apply]
    simp only [Timer.count_setAcc, Timer.count_rate]
    congr 2
    ring

/-! ### tick -/

/-- What any number of passes of `tick` leaves alone, and that they keep the overflow flag. -/
theorem Timer.drain_frame (n : Nat) :
    (Timer.drain n t).enabled = t.enabled ∧ (Timer.drain n t).masked = t.masked ∧ (Timer.drain n t).rate = t.rate ∧
      (Timer.drain n t).preset = t.preset ∧ (t.elapsed = true → (Timer.drain n t).elapsed = true) ∧
      (t.enabled = false → Timer.drain n t = { t with acc := (Timer.drain n t).acc }) := by
  induction n generalizing t with
  | zero => exact ⟨rfl, rfl, rfl, rfl, id, fun _ => rfl⟩
  | succ n ih =>
    rw [Timer.drain]
    split
    · obtain ⟨h₁, h₂, h₃, h₄, h₅, h₆⟩ := ih (Timer.count { t with acc := t.acc - t.rate })
      refine ⟨by simp [h₁], by simp [h₂], by simp [h₃], by simp [h₄], fun h => h₅ (Timer.count_elapsed_mono _ h), fun h => ?_⟩
      have hd : Timer.count { t with acc := t.acc - t.rate } = { t with acc := t.acc - t.rate } :=
        Timer.count_of_disabled _ h
      rw [hd] at h₆ ⊢
      exact h₆ h
    · exact ⟨rfl, rfl, rfl, rfl, id, fun _ => rfl⟩

theorem Timer.tick_frame (e : Rat) :
    (Timer.tick e t).enabled = t.enabled ∧ (Timer.tick e t).masked = t.masked ∧ (Timer.tick e t).rate = t.rate ∧
      (Timer.tick e t).preset = t.preset ∧ (t.elapsed = true → (Timer.tick e t).elapsed = true) ∧
      (t.enabled = false → Timer.tick e t = { t with acc := (Timer.tick e t).acc }) := by
  simpa [Timer.tick] using Timer.drain_frame { t with acc := t.acc + e } (loopPasses (t.acc + e) t.rate)

end Sys2Proof.Machine
end

