-- ==== Sys2Proof/Laws/Ops.lean ====
section
/-! SUPPORT. What each shared operation of the machine can do, said once: stores to the shadow, the intercept of a register
write, the shell ticks of RUN, the soft reset. -/

namespace Sys2Proof.Machine

variable (s : State)

/-! ### The shadow -/

theorem State.shadowRead_congr {s t : State} (h : ∀ f, t.shadow f = s.shadow f) : SameShadow s t := fun f a => by
  rw [State.shadowRead_eq, State.shadowRead_eq, h f]

theorem State.shadow_shadowWrite_same (f : RegFile) (a v : Byte) :
    (s.shadowWrite f a v).shadow f = (s.shadow f).write a.toNat v := State.setShadow_shadow_same ..

theorem State.shadow_shadowWrite_ne (f : RegFile) (a v : Byte) (g : RegFile) (h : g ≠ f) :
    (s.shadowWrite f a v).shadow g = s.shadow g := State.setShadow_shadow_ne _ _ _ _ h

/-- A read after a write: the byte written there, the old byte everywhere else (R110, R111). -/
theorem State.shadowRead_shadowWrite (f : RegFile) (a v : Byte) (g : RegFile) (b : Byte) :
    (s.shadowWrite f a v).shadowRead g b = if (g, b) = (f, a) then v else s.shadowRead g b := by
  by_cases hg : g = f
  · subst hg
    rw [State.shadowRead_eq, State.shadow_shadowWrite_same, Memory.read_write, State.shadowRead_eq]
    simp only [Prod.mk.injEq, true_and, BitVec.toNat_inj, eq_comm (a := a)]
  · rw [State.shadowRead_eq, State.shadow_shadowWrite_ne _ _ _ _ _ hg, if_neg (by simp [hg]), State.shadowRead_eq]

@[simp] theorem State.shadowWrite_cfg (f : RegFile) (a v : Byte) : (s.shadowWrite f a v).cfg = s.cfg :=
  State.setShadow_cfg ..

@[simp] theorem State.shadowWrite_timer (f : RegFile) (a v : Byte) (i : TimerId) :
    (s.shadowWrite f a v).timer i = s.timer i := State.setShadow_timer ..

/-! ### The intercept -/

/-- The intercept writes timers only. -/
theorem State.intercept_eq (f : RegFile) (r v : Byte) :
    s.intercept f r v =
      { s with timer1 := (s.intercept f r v).timer1, timer2 := (s.intercept f r v).timer2 } := by
  simp only [State.intercept, State.controlWrite, State.onTimer_eq]
  split <;> [skip; skip; split; skip] <;> rfl

theorem State.intercept_timer1Counter (v : Byte) :
    s.intercept .primary 0x02#8 v = { s with timer1 := Timer.setCounter s.cfg.regWriteLoadsPreset v s.timer1 } := rfl

theorem State.intercept_timer2Counter (v : Byte) :
    s.intercept .primary 0x03#8 v = { s with timer2 := Timer.setCounter s.cfg.regWriteLoadsPreset v s.timer2 } := rfl

theorem State.intercept_ack (v : Byte) (h : v.getLsbD 7 = true) :
    s.intercept .primary 0x04#8 v =
      { s with timer1 := { s.timer1 with elapsed := false }, timer2 := { s.timer2 with elapsed := false } } := by
  have : s.intercept .primary 0x04#8 v = s.controlWrite v := rfl
  rw [this, State.controlWrite, ctrlAck, if_pos h]
  rfl

theorem State.intercept_control (v : Byte) (h : v.getLsbD 7 = false) :
    s.intercept .primary 0x04#8 v =
      { s with
        timer1 := { s.timer1 with masked := v.getLsbD 6, enabled := v.getLsbD 0 }
        timer2 := { s.timer2 with masked := v.getLsbD 5, enabled := v.getLsbD 1 } } := by
  have : s.intercept .primary 0x04#8 v = s.controlWrite v := rfl
  rw [this, State.controlWrite, ctrlAck, if_neg (h ▸ Bool.false_ne_true)]
  rfl

theorem State.intercept_other (f : RegFile) (r v : Byte)
    (h : f = .secondary ∨ (r ≠ 0x02#8 ∧ r ≠ 0x03#8 ∧ r ≠ 0x04#8)) : s.intercept f r v = s := by
  have : classify f r = .other := by
    rcases h with rfl | ⟨h₂, h₃, h₄⟩
    · rfl
    · cases f
      · simp [classify, t1Reg, t2Reg, tctrlReg, h₂, h₃, h₄]
      · rfl
  rw [State.intercept, this]

/-- All the intercept can do to the two timers, by the class of the write (R124). -/
theorem State.intercept_cases (f : RegFile) (r v : Byte) :
    (f = .primary ∧ r = 0x02#8 ∧
      s.intercept f r v = { s with timer1 := Timer.setCounter s.cfg.regWriteLoadsPreset v s.timer1 }) ∨
    (f = .primary ∧ r = 0x03#8 ∧
      s.intercept f r v = { s with timer2 := Timer.setCounter s.cfg.regWriteLoadsPreset v s.timer2 }) ∨
    (f = .primary ∧ r = 0x04#8 ∧ v.getLsbD 7 = true ∧ s.intercept f r v =
      { s with timer1 := { s.timer1 with elapsed := false }, timer2 := { s.timer2 with elapsed := false } }) ∨
    (f = .primary ∧ r = 0x04#8 ∧ v.getLsbD 7 = false ∧ s.intercept f r v =
      { s with
        timer1 := { s.timer1 with masked := v.getLsbD 6, enabled := v.getLsbD 0 }
        timer2 := { s.timer2 with masked := v.getLsbD 5, enabled := v.getLsbD 1 } }) ∨
    ((f = .secondary ∨ (r ≠ 0x02#8 ∧ r ≠ 0x03#8 ∧ r ≠ 0x04#8)) ∧ s.intercept f r v = s) := by
  by_cases h : f = .secondary ∨ (r ≠ 0x02#8 ∧ r ≠ 0x03#8 ∧ r ≠ 0x04#8)
  · exact .inr (.inr (.inr (.inr ⟨h, s.intercept_other f r v h⟩)))
  · have hf : f = .primary := by cases f <;> simp_all
    subst hf
    by_cases h₂ : r = 0x02#8
    · subst h₂; exact .inl ⟨rfl, rfl, rfl⟩
    by_cases h₃ : r = 0x03#8
    · subst h₃; exact .inr (.inl ⟨rfl, rfl, rfl⟩)
    have h₄ : r = 0x04#8 := by simp_all
    subst h₄
    cases h₇ : v.getLsbD 7
    · exact .inr (.inr (.inr (.inl ⟨rfl, rfl, rfl, s.intercept_control v h₇⟩)))
    · exact .inr (.inr (.inl ⟨rfl, rfl, rfl, s.intercept_ack v h₇⟩))

/-! ### Register writes -/

/-- A register write, field by field. -/
theorem State.writeRegister_eq (loc : Loc) (v : Byte) (b : Bool) :
    s.writeRegister loc v b =
      { s with
        timer1 := (s.intercept loc.1 loc.2 v).timer1
        timer2 := (s.intercept loc.1 loc.2 v).timer2
        shadowP := (s.shadowWrite loc.1 loc.2 v).shadowP
        shadowS := (s.shadowWrite loc.1 loc.2 v).shadowS
        stats := { s.stats with dataWrites := s.stats.dataWrites + 1 }
        coreLog := s.coreLog ++
          [if b then .coreWriteBuffered (coreIndex loc.1 loc.2) v else .coreWrite (coreIndex loc.1 loc.2) v] } := by
  obtain ⟨f, r⟩ := loc
  rw [State.writeRegister, State.intercept_eq]
  simp only [State.intercept, State.controlWrite, State.onTimer_eq]
  cases f <;> (split <;> [skip; skip; split; skip]) <;> rfl

/-! ### RUN -/

/-- A shell tick writes the timers and `usec_acc` only. -/
theorem State.shellTick_eq :
    s.shellTick =
      { s with
        timer1 := Timer.tick s.cfg.tickUs s.timer1
        timer2 := Timer.tick s.cfg.tickUs s.timer2
        usecAcc := s.usecAcc - s.cfg.tickUs } := rfl

/-- What any number of passes of RUN's loop leaves alone, and what they do to each timer. -/
theorem State.shellTicks_frame (n : Nat) :
    ∃ m : Nat, s.shellTicks n =
      { s with
        timer1 := (Timer.tick s.cfg.tickUs)^[m] s.timer1
        timer2 := (Timer.tick s.cfg.tickUs)^[m] s.timer2
        usecAcc := (s.shellTicks n).usecAcc } := by
  induction n generalizing s with
  | zero => exact ⟨0, rfl⟩
  | succ n ih =>
    rw [State.shellTicks]
    split
    · obtain ⟨m, h⟩ := ih s.shellTick
      refine ⟨m + 1, ?_⟩
      rw [h]
      rfl
    · exact ⟨0, rfl⟩

/-- As many shell ticks as `usec_acc` allows are all taken. -/
theorem State.shellTicks_eq (n : Nat) (hv : s.cfg.valid) (h : (n : Rat) * s.cfg.tickUs ≤ s.usecAcc) :
    s.shellTicks n =
      { s with
        timer1 := (Timer.tick s.cfg.tickUs)^[n] s.timer1
        timer2 := (Timer.tick s.cfg.tickUs)^[n] s.timer2
        usecAcc := s.usecAcc - n * s.cfg.tickUs } := by
  induction n generalizing s with
  | zero => simp [State.shellTicks]
  | succ n ih =>
    push_cast at h
    have hn : (0 : Rat) ≤ n * s.cfg.tickUs := mul_nonneg n.cast_nonneg hv.le
    have hr : s.cfg.tickUs ≤ s.usecAcc := by linarith
    have hu : s.usecAcc - s.cfg.tickUs - n * s.cfg.tickUs = s.usecAcc - ((n + 1 : Nat) : Rat) * s.cfg.tickUs := by
      push_cast; ring
    have hs := ih s.shellTick hv (by rw [State.shellTick_eq]; simp only; linarith)
    rw [State.shellTicks, if_pos hr, hs, State.shellTick_eq]
    simp only [hu, Function.iterate_succ_apply]

/-! ### Soft reset -/

/-- A soft reset, field by field. -/
theorem State.softReset_eq (rate : Nat) :
    s.softReset rate =
      { s with
        timer1 := if s.cfg.softResetClearsTimers then { s.timer1 with counter := 0, elapsed := false } else s.timer1
        timer2 := if s.cfg.softResetClearsTimers then { s.timer2 with counter := 0, elapsed := false } else s.timer2
        shadowP := []
        shadowS := []
        stats := Stats.zero
        coreLog := s.coreLog ++ [.coreReset rate] } := by
  have h : s.softReset rate = (((s.emit (.coreReset rate)).shadowReset).clearStats).clearTimers := rfl
  rw [h, State.clearTimers]
  by_cases hc : s.cfg.softResetClearsTimers = true
  · rw [if_pos (by exact hc), if_pos hc, if_pos hc]; rfl
  · rw [if_neg (by exact hc), if_neg hc, if_neg hc]; rfl

end Sys2Proof.Machine
end

