-- ==== Sys2Proof/Laws/PerInstr.lean ====
section
/-! SUPPORT. What is proved of each operation as syntax, one lemma for each constructor. -/

namespace Sys2Proof.Laws.EncodesInRow

/-- The row of the opcode map an operation stands in (R65). -/
def rowOf : Instr → Opcode
  | .waddr _ _ => .waddr
  | .wdata _ _ _ => .wdata
  | .wreg _ _ _ _ => .wreg
  | .rreg _ _ => .rreg
  | .rstat => .rstat
  | .run _ => .run
  | .reset => .reset
  | .resetr _ => .resetr
  | .stats => .stats

/-- The operation's word carries its own row's opcode and has that row's must-be-zero bits zero, for every operand, those that
do not fit included: no operand reaches a bit outside its field. -/
def Statement (i : Instr) : Prop := (rowOf i).matchesWord (encode i) = true

theorem waddr (f : RegFile) (a : Byte) : Statement (.waddr f a) :=
  (matchesWord_iff ..).2 ⟨opField_formatR .., zField_formatR .., bField_formatR .., dataField_formatR ..⟩

theorem wdata (f : RegFile) (b : Bool) (d : Byte) : Statement (.wdata f b d) :=
  (matchesWord_iff ..).2 ⟨opField_formatR .., zField_formatR .., regField_formatR ..⟩

theorem wreg (f : RegFile) (b : Bool) (r v : Byte) : Statement (.wreg f b r v) :=
  (matchesWord_iff ..).2 ⟨opField_formatR .., zField_formatR ..⟩

theorem rreg (f : RegFile) (r : Byte) : Statement (.rreg f r) :=
  (matchesWord_iff ..).2 ⟨opField_formatR .., zField_formatR .., bField_formatR .., dataField_formatR ..⟩

theorem rstat : Statement .rstat := (matchesWord_iff ..).2 ⟨opField_formatI .., immField_formatI ..⟩

theorem run (t : Rat) : Statement (.run t) := (matchesWord_iff ..).2 ⟨opField_formatI .., trivial⟩

theorem reset : Statement .reset := (matchesWord_iff ..).2 ⟨opField_formatI .., immField_formatI ..⟩

theorem resetr (hz : Nat) : Statement (.resetr hz) := (matchesWord_iff ..).2 ⟨opField_formatI .., trivial⟩

theorem stats : Statement .stats := (matchesWord_iff ..).2 ⟨opField_formatI .., immField_formatI ..⟩

end Sys2Proof.Laws.EncodesInRow
end

