-- ==== Sys2Proof/Tests/Slice0.lean ====
section
/-! SUPPORT. The model's own tests.  Every expected value stands in spec/95_test_vectors.md or is worked by hand from the rule a
test's comment names.  The witnesses at the end show that the hypotheses of each statement can be met. -/

namespace Sys2Proof.Tests

open Sys2Proof.Machine

/-! ### Helpers -/

/-- The state an outcome holds. -/
def nextOf : Host.Outcome State Fault Refusal → Option State
  | .next s => some s
  | .fault _ => none
  | .refused _ => none

/-- The reason of a refusal. -/
def refusalOf : Host.Outcome State Fault Refusal → Option Refusal
  | .next _ => none
  | .fault _ => none
  | .refused r => some r

/-- The response of an outcome. -/
def responseOf (o : Host.Outcome State Fault Refusal) : Option Response := (nextOf o).map State.response

/-- Power-on at 48 000 frames per second with the default parameters. -/
def fresh : State := State.powerOn Config.standard

/-- Timer 1 with (enabled, masked, preset, counter, acc, elapsed), as spec/95_test_vectors.md writes a timer. -/
def t1 (enabled masked : Bool) (preset counter : Byte) (acc : Rat) (elapsed : Bool) : Timer where
  enabled := enabled
  masked := masked
  rate := 80
  preset := preset
  counter := counter
  acc := acc
  elapsed := elapsed

/-- Timer 2, likewise. -/
def t2 (enabled masked : Bool) (preset counter : Byte) (acc : Rat) (elapsed : Bool) : Timer :=
  { t1 enabled masked preset counter acc elapsed with rate := 320 }

/-- A state in the middle of work: both timers run, timer 2 is masked over a pending flag, bytes stand in both files, the
accumulators are not 0. -/
def busy : State :=
  { fresh with
    timer1 := t1 true false 0 254 0 false
    timer2 := t2 true true 0 7 240 true
    shadowP := [(2, 0xFE), (4, 0x23)]
    shadowS := [(5, 0x01)]
    latchP := 0x04
    latchS := 0x05
    stats := ⟨3, 2, 1, 0⟩
    sampleAcc := 99 / 125
    usecAcc := 79
    coreLog := [.coreReset 48000, .coreWrite 0x002 0xFE, .coreWrite 0x004 0x23, .coreWriteBuffered 0x105 0x01] }

/-- The same device built with both switches on. -/
def busySwitched : State :=
  { busy with cfg := { Config.standard with regWriteLoadsPreset := true, softResetClearsTimers := true } }

/-! ### Well-formedness: a term each check refuses -/

/-- RUN with a negative operand is out of its domain and fits no word (D13). -/
theorem test_wf_refuses_negative_run : (Instr.run (-1)).inDomain = false ∧ (Instr.run (-1)).wf = false := by
  decide +kernel

/-- RUN with an operand that is no multiple of 1/256 fits no word (R67). -/
theorem test_wf_refuses_unencodable_fraction : (Instr.run (1 / 3)).wf = false ∧ (Instr.run (1 / 256)).wf = true := by
  decide +kernel

/-- RUN of 2^20 microseconds fits no word; 1048575+255/256 does (R67). -/
theorem test_wf_refuses_long_run :
    (Instr.run (2 ^ 20)).wf = false ∧ (Instr.run (1048575 + 255 / 256)).wf = true := by decide +kernel

/-- RESETR with a rate of 2^28 fits no word (R68). -/
theorem test_wf_refuses_high_rate : (Instr.resetr (2 ^ 28)).wf = false ∧ (Instr.resetr (2 ^ 28 - 1)).wf = true := by
  decide

/-! ### Decoding: words written out from R62 to R68, bit 31 first (V1, V2) -/

theorem test_decode_waddr :
    decodeOption 0b0001_0_0_0000000000_00000010_00000000#32 = some (.waddr .primary 0x02) ∧
    decodeOption 0b0001_1_0_0000000000_00000101_00000000#32 = some (.waddr .secondary 0x05) ∧
    decodeOption 0x1000FF00#32 = some (.waddr .primary 0xFF) := by decide

theorem test_decode_wdata :
    decodeOption 0b0010_0_0_0000000000_00000000_11111110#32 = some (.wdata .primary false 0xFE) ∧
    decodeOption 0b0010_1_1_0000000000_00000000_00000001#32 = some (.wdata .secondary true 0x01) ∧
    decodeOption 0x28000007#32 = some (.wdata .secondary false 0x07) ∧
    decodeOption 0x24000080#32 = some (.wdata .primary true 0x80) := by decide

theorem test_decode_wreg :
    decodeOption 0b0011_0_0_0000000000_00000100_00000001#32 = some (.wreg .primary false 0x04 0x01) ∧
    decodeOption 0b0011_1_1_0000000000_00000101_00000001#32 = some (.wreg .secondary true 0x05 0x01) ∧
    decodeOption 0x38000403#32 = some (.wreg .secondary false 0x04 0x03) ∧
    decodeOption 0x3C00FFFF#32 = some (.wreg .secondary true 0xFF 0xFF) := by decide

theorem test_decode_rreg :
    decodeOption 0b0100_0_0_0000000000_00000010_00000000#32 = some (.rreg .primary 0x02) ∧
    decodeOption 0x48000500#32 = some (.rreg .secondary 0x05) := by decide

theorem test_decode_run :
    decodeOption 0b0110_00000000000001010000_00000000#32 = some (.run 80) ∧
    decodeOption 0x60001480#32 = some (.run (41 / 2)) ∧
    decodeOption 0x60000001#32 = some (.run (1 / 256)) ∧
    decodeOption 0x6FFFFFFF#32 = some (.run (1048575 + 255 / 256)) := by decide +kernel

theorem test_decode_resetr :
    decodeOption 0b1000_0000000000001010110001000100#32 = some (.resetr 44100) ∧
    decodeOption 0x8000BB80#32 = some (.resetr 48000) ∧
    decodeOption 0x80000000#32 = some (.resetr 0) := by decide

theorem test_decode_format_n :
    decodeOption 0b0101_0000000000000000000000000000#32 = some .rstat ∧
    decodeOption 0b0111_0000000000000000000000000000#32 = some .reset ∧
    decodeOption 0b1001_0000000000000000000000000000#32 = some .stats := by decide

theorem test_decode_refuses_illegal_words :
    ([0x00000000, 0xFFFFFFFF, 0xA0000000, 0x10000201, 0x14000200, 0x20000100, 0x30010000, 0x32000401, 0x44000200, 0x40000201,
      0x50000001, 0x70000001, 0x90000100] : List Word).all (fun w => (decodeOption w).isNone) = true := by decide

theorem test_encode_words :
    encode (.waddr .secondary 0x05) = 0x18000500#32 ∧ encode (.wdata .secondary true 0x01) = 0x2C000001#32 ∧
    encode (.wreg .primary false 0x04 0x42) = 0x30000442#32 ∧ encode (.rreg .secondary 0x05) = 0x48000500#32 ∧
    encode .rstat = 0x50000000#32 ∧ encode (.run 160) = 0x6000A000#32 ∧ encode .reset = 0x70000000#32 ∧
    encode (.resetr 44100) = 0x8000AC44#32 ∧ encode .stats = 0x90000000#32 := by decide +kernel

/-- V4: the pseudo-instructions, through the assembler and the encoder. -/
theorem test_assemble_pseudo :
    (assembleLine "WPORT P, 0x02, 0xFE").map (List.map encode) = some [0x10000200, 0x200000FE] ∧
    (assembleLine "WPORT.B S, 0x05, 0x01 ; buffered").map (List.map encode) = some [0x18000500, 0x2C000001] ∧
    (assembleLine "T1SET 0xFF").map (List.map encode) = some [0x300002FF] ∧
    (assembleLine "T2SET 255").map (List.map encode) = some [0x300003FF] ∧
    (assembleLine "TCTRL 0x22").map (List.map encode) = some [0x30000422] ∧
    (assembleLine "ACK").map (List.map encode) = some [0x30000480] := by decide +kernel

/-- R75: one line of each mnemonic, and lines that are none. -/
theorem test_assemble_lines :
    assembleLine "WREG.B S, 0x05, 0x01" = some [.wreg .secondary true 0x05 0x01] ∧
    assembleLine "RUN 20+128/256" = some [.run (41 / 2)] ∧
    assembleLine "RESETR 44100" = some [.resetr 44100] ∧
    assembleLine "  ; nothing" = some [] ∧
    assembleLine "RUN 20+256/256" = none ∧
    assembleLine "RREG.B P, 0x02" = none ∧
    assembleLine "WADDR P, 256" = none := by decide +kernel

/-! ### Timer primitives -/

/-- V10. -/
theorem test_count :
    (t1 true false 0 0 0 false).count = t1 true false 0 1 0 false ∧
    (t1 true false 0 254 0 false).count = t1 true false 0 255 0 false ∧
    (t1 true false 100 255 0 false).count = t1 true false 100 100 0 true ∧
    (t1 true true 0 255 0 false).count = t1 true true 0 0 0 true ∧
    (t1 false true 0 7 13 true).count = t1 false true 0 7 13 true := by decide +kernel

/-- V11, V12, V13, V14. -/
theorem test_tick :
    (t1 true false 0 254 0 false).tick 79 = t1 true false 0 254 79 false ∧
    (t1 true false 0 254 79 false).tick 1 = t1 true false 0 255 0 false ∧
    (t2 true false 0 250 0 false).tick 2240 = t2 true false 0 1 0 true ∧
    (t1 false false 0 7 0 false).tick 1000 = t1 false false 0 7 40 false ∧
    (t1 true false 0 0 (81 / 2) false).tick (81 / 2) = t1 true false 0 1 1 false := by decide +kernel

/-! ### Memory -/

/-- Writing the byte an unlisted address reads as removes the entry; a write keeps the addresses rising. -/
theorem test_memory_canonical :
    Memory.write [(2, 0xFE)] 2 0 = [] ∧ Memory.write [(2, 0xFE), (9, 0x01)] 4 0x23 = [(2, 0xFE), (4, 0x23), (9, 0x01)] ∧
    Memory.read [(2, 0xFE)] 3 = 0 ∧ Memory.wf [(4, 0x23), (2, 0xFE)] = false := by decide

/-! ### One operation on a small state -/

/-- V45: the latch of its own file only; one address write counted. -/
theorem test_waddr :
    (nextOf (exec (.waddr .secondary 0x20) busy)).map (fun t => (t.latchP, t.latchS, t.stats)) =
      some (0x04, 0x20, ⟨3, 3, 1, 0⟩) := by decide

/-- S8 step 2: WDATA goes to the latched register; here `latch[P]` = 4, and 0x80 acknowledges without a reload. -/
theorem test_wdata_acknowledges :
    (nextOf (exec (.wdata .primary false 0x80) busy)).map
      (fun t => (t.timer2.elapsed, t.timer2.masked, t.timer1.enabled, t.shadowRead .primary 4, t.latchP)) =
      some (false, true, true, 0x80, 0x04) := by decide

/-- P3 steps 2 and 19: the latch of the Secondary file, and the 9-bit index. -/
theorem test_wdata_secondary :
    (nextOf (exec (.wdata .secondary true 0x07) busy)).map (fun t => (t.shadowRead .secondary 5, t.coreLog.getLast?)) =
      some (0x07, some (.coreWriteBuffered 0x105 0x07)) := by decide

/-- R126's example: 0x42 masks timer 1 and starts timer 2, and stops timer 1. -/
theorem test_wreg_control :
    (nextOf (exec (.wreg .primary false 0x04 0x42) busy)).map
      (fun t => (t.timer1.enabled, t.timer1.masked, t.timer2.enabled, t.timer2.masked, t.timer2.elapsed)) =
      some (false, true, true, false, true) := by decide

/-- V44, V46, V64: P:0x03 sets timer 2's counter; S:0x03 does not; `preset` follows only under its switch. -/
theorem test_wreg_counter :
    (nextOf (exec (.wreg .primary false 0x03 0xF0) busy)).map (fun t => (t.timer2.counter, t.timer2.preset)) = some (0xF0, 0) ∧
    (nextOf (exec (.wreg .secondary false 0x03 0xF0) busy)).map (fun t => t.timer2.counter) = some 7 ∧
    (nextOf (exec (.wreg .primary false 0x03 0xF0) busySwitched)).map (fun t => (t.timer2.counter, t.timer2.preset)) =
      some (0xF0, 0xF0) := by decide

/-- V21, V24: the files are separate, and P:0x02 reads the byte last written and not the counter. -/
theorem test_rreg :
    responseOf (exec (.rreg .primary 0x02) busy) = some (.byte 0xFE) ∧
    responseOf (exec (.rreg .secondary 0x05) busy) = some (.byte 0x01) ∧
    responseOf (exec (.rreg .primary 0x05) busy) = some (.byte 0x00) := by decide

/-- V50: a masked flag shows in no bit. -/
theorem test_rstat_masked : responseOf (exec .rstat busy) = some (.byte 0x00) := by decide

/-- V50: the rows 0xA0, 0xC0 and 0xE0. -/
theorem test_rstat_visible :
    responseOf (exec .rstat { busy with timer2 := t2 true false 0 7 240 true }) = some (.byte 0xA0) ∧
    responseOf (exec .rstat { busy with timer1 := t1 false false 0 0 0 true }) = some (.byte 0xC0) ∧
    responseOf (exec .rstat { busy with timer1 := t1 false false 0 0 0 true, timer2 := t2 false false 0 0 0 true }) =
      some (.byte 0xE0) := by decide

/-- R140's example: `RUN 160` at 48 000 from counter 0xFE overflows timer 1 and responds 7, `sample_acc` = 17/25 (V72). -/
theorem test_run_overflows :
    (nextOf (exec (.run 160) { fresh with timer1 := t1 true false 0 0xFE 0 false })).map
      (fun t => (t.timer1, t.timer2, t.response, t.sampleAcc, t.usecAcc)) =
      some (t1 true false 0 0 0 true, t2 false false 0 0 160 false, .count 7, 17 / 25, 0) := by decide +kernel

/-- V71: from `usec_acc` = 79 and `sample_acc` = 99/125, `RUN 1` is one shell tick and no frame; timer 2's fourth tick. -/
theorem test_run_carries :
    (nextOf (exec (.run 1) busy)).map (fun t => (t.timer1.counter, t.timer2.counter, t.timer2.acc, t.response, t.sampleAcc)) =
      some (255, 8, 0, .count 0, 21 / 25) := by decide +kernel

/-- V82: the shadow and the statistics go, the timers and the latches stay, one event is logged. -/
theorem test_reset :
    (nextOf (exec .reset busy)).map (fun t => (t.shadowRead .primary 2, t.stats, t.latchS, t.coreLog.getLast?)) =
      some (0, ⟨0, 0, 0, 0⟩, 0x05, some (.coreReset 48000)) ∧
    (nextOf (exec .reset busy)).map (fun t => (t.timer1, t.timer2)) =
      some (t1 true false 0 254 0 false, t2 true true 0 7 240 true) := by decide +kernel

/-- V82, last sentence: under the switch `counter` and `elapsed` are cleared and the rest of each timer is kept. -/
theorem test_reset_clears_timers :
    (nextOf (exec .reset busySwitched)).map (fun t => (t.timer1, t.timer2)) =
      some (t1 true false 0 0 0 false, t2 true true 0 0 240 false) := by decide +kernel

/-- R143's example. -/
theorem test_resetr :
    (nextOf (exec (.resetr 44100) busy)).map (fun t => (t.sampleRate, t.coreLog.getLast?)) =
      some (44100, some (.coreReset 44100)) := by decide

/-- R145: the four counters in R70's order. -/
theorem test_stats : responseOf (exec .stats busy) = some (.stats 3 2 1 0) := by decide

/-! ### Steps -/

/-- A word the host issues runs as the next operation, also from reset. -/
theorem test_step_runs_word :
    responseOf (step (State.reset.withFetchWord 32 0x60005000)) = some (.count 3) ∧
    responseOf (step (busy.withFetchWord 32 0x90000000)) = some (.stats 3 2 1 0) := by decide +kernel

/-- An illegal word and a negative RUN are refused by name (R71, D13). -/
theorem test_step_refuses :
    refusalOf (step (busy.withFetchWord 32 0x14000200)) = some (.illegalWord 0x14000200 (.mustBeZero .waddr)) ∧
    refusalOf (step { busy with pending := [.op (.run (-1))] }) = some (.negativeElapsed (-1)) := by decide +kernel

/-! ### Witnesses: concrete states and operands that meet the hypotheses of each statement -/

/-- `busy` meets the invariants, and so does the device with both switches on. -/
theorem witness_invariant : busy.Inv ∧ busy.PhaseInv ∧ busySwitched.Inv := by
  refine ⟨⟨?_, ?_, ?_, ?_, ?_, ?_, ?_, ?_, ?_, ?_, ?_⟩, fun _ => ⟨rfl, .inr (.inr (.inr rfl))⟩,
    ⟨?_, ?_, ?_, ?_, ?_, ?_, ?_, ?_, ?_, ?_, ?_⟩⟩
  all_goals first
    | (constructor <;> decide +kernel)
    | decide +kernel

theorem witness_IllegalWordsAreExactlyThoseListed :
    (busy.withFetchWord 32 0x30010000).pending = [.word 0x30010000#32] ∧
    ∃ why, decode 0x30010000#32 = .error why := ⟨rfl, .mustBeZero .wreg, by decide⟩

theorem witness_DecodeAndEncodeAgree :
    (Instr.run (1048575 + 255 / 256)).wf = true ∧ (∃ i, decode 0x3C00FFFF#32 = .ok i) ∧
    Opcode.wreg.matchesWord 0x3C00FFFF#32 = true :=
  ⟨by decide +kernel, ⟨_, rfl⟩, by decide⟩

theorem witness_RunImmediateIsFixedPoint : opField 0x60000000#32 = 0x6#4 ∧ opField 0x6FFFFFFF#32 = 0x6#4 := by decide

theorem witness_StepRunsTheDecodedOperation :
    ((busy.withFetchWord 32 0x50000000).pending = [.word 0x50000000#32] ∧ decodeOption 0x50000000#32 = some .rstat) ∧
    ({ busy with pending := [.op (.run (1 / 3))] } : State).pending = [.op (.run (1 / 3))] ∧
    busy.pending = [] := ⟨⟨rfl, by decide⟩, rfl, rfl⟩

theorem witness_InvariantHoldsAtPowerOn : Config.standard.valid ∧ ({ Config.standard with tickUs := 1 / 3 } : Config).valid := by
  decide +kernel

theorem witness_StepKeepsTheInvariant :
    ({ busy with pending := [.op .rstat] } : State).Inv ∧ ∃ t, step { busy with pending := [.op .rstat] } = .next t :=
  ⟨{ witness_invariant.1 with }, _, rfl⟩

theorem witness_StepKeepsThePrescalerPhase :
    ({ busy with pending := [.op .stats] } : State).Inv ∧ ({ busy with pending := [.op .stats] } : State).PhaseInv ∧
    ∃ t, step { busy with pending := [.op .stats] } = .next t :=
  ⟨{ witness_invariant.1 with }, witness_invariant.2.1, _, rfl⟩

theorem witness_EveryOperationCompletes : (Instr.run 0).inDomain = true ∧ (Instr.resetr (2 ^ 40)).inDomain = true := by
  decide +kernel

theorem witness_LegalProgramsRunToTheirEnd :
    ∀ c ∈ ([.word 0x10000400#32, .op (.run (1 / 3)), .word 0x6FFFFFFF#32] : List Command), c.legal = true := by
  decide +kernel

theorem witness_CountStepsAndReloads :
    (t1 false true 0 7 13 true).enabled = false ∧
    ((t1 true false 100 255 0 false).enabled = true ∧ (t1 true false 100 255 0 false).counter = 255#8) ∧
    (t1 true false 0 254 0 false).counter ≠ 255#8 := by decide

theorem witness_TickPerformsTheCountStepsDue :
    0 < (t1 true false 0 254 79 false).rate ∧ (0 : Rat) ≤ (t1 true false 0 254 79 false).acc ∧ (0 : Rat) ≤ 1 ∧
    (t1 true false 0 254 79 false).acc < (t1 true false 0 254 79 false).rate := by decide +kernel

/-- Both sides of the boundary 256 - c of V17's first rows, and `preset` = 255. -/
theorem witness_CountStepsClosedForm :
    (t1 true false 0 0 0 false).enabled = true ∧ 255 < 256 - (t1 true false 0 0 0 false).counter.toNat ∧
    256 - (t1 true false 0 0 0 false).counter.toNat ≤ 256 ∧ 256 - (t1 true false 255 255 0 false).counter.toNat ≤ 1 := by
  decide +kernel

theorem witness_ControlWriteAcknowledgesOrSetsFlags :
    (0x80#8).getLsbD 7 = true ∧ (0xFF#8).getLsbD 7 = true ∧ (0x7F#8).getLsbD 7 = false ∧ (0x00#8).getLsbD 7 = false := by
  decide

theorem witness_OtherRegisterWritesLeaveTheTimers :
    (RegFile.secondary = .secondary) ∧ ((0x01#8 ≠ 0x02#8 ∧ 0x01#8 ≠ 0x03#8 ∧ 0x01#8 ≠ 0x04#8) ∧
      (0x05#8 ≠ 0x02#8 ∧ 0x05#8 ≠ 0x03#8 ∧ 0x05#8 ≠ 0x04#8)) := by decide

theorem witness_StatusAfterControlWriteShowsThroughTheNewMask : (0x02#8).getLsbD 7 = false := by decide

theorem witness_ShadowHoldsTheLastValueWritten :
    ∃ t, execAll [.wdata .primary false 0x5A, .waddr .secondary 5, .reset, .wdata .secondary true 1] fresh = .next t :=
  ⟨_, rfl⟩

theorem witness_WrittenByteReadsBackUntilOverwritten :
    ∃ t u, exec (.wreg .primary true 0x02 0x37) busy = .next t ∧
      LeavesAlone (.primary, 0x02) [.wreg .secondary false 0x02 0, .wdata .primary false 1] t ∧
      execAll [.wreg .secondary false 0x02 0, .wdata .primary false 1] t = .next u := by
  refine ⟨_, _, rfl, ?_, rfl⟩
  exact ⟨by decide, fun t h => ⟨by cases h; decide, fun _ _ => trivial⟩⟩

theorem witness_RunCompletesAndItsFrame : (0 : Rat) ≤ 0 ∧ (-1 / 256 : Rat) < 0 := by decide +kernel

theorem witness_RunPerformsTheShellTicksDue : busy.Inv ∧ (0 : Rat) ≤ 1 ∧ (0 : Rat) ≤ 0 :=
  ⟨witness_invariant.1, by decide +kernel, by decide +kernel⟩

theorem witness_RunReportsTheFramesDue : busy.Inv ∧ (0 : Rat) ≤ 125 / 6 := ⟨witness_invariant.1, by decide +kernel⟩

theorem witness_RunIsAdditive : busy.Inv ∧ (0 : Rat) ≤ 40 ∧ (0 : Rat) ≤ 1 / 3 :=
  ⟨witness_invariant.1, by decide +kernel, by decide +kernel⟩

theorem witness_SampleCountsDoNotDrift :
    busy.Inv ∧ (∀ t ∈ ([1 / 3, 999999, 2 / 3] : List Rat), 0 ≤ t) ∧ ([1 / 3, 999999, 2 / 3] : List Rat).sum = 1000000 :=
  ⟨witness_invariant.1, by decide +kernel, by decide +kernel⟩

/-- Timer 1 of `busy` first overflows after 2 * 80 - 0 - 79 = 81 microseconds: both sides of the boundary (R189). -/
theorem witness_FirstOverflowTime :
    busy.Inv ∧ busy.PhaseInv ∧ busy.cfg.tickUs = 80 ∧ (0 : Rat) ≤ 81 ∧ (busy.timer .one).enabled = true ∧
    (busy.timer .one).elapsed = false ∧
    (nextOf (exec (.run 81) busy)).map (fun t => t.timer1.elapsed) = some true ∧
    (nextOf (exec (.run (81 - 1 / 256)) busy)).map (fun t => t.timer1.elapsed) = some false :=
  ⟨witness_invariant.1, witness_invariant.2.1, rfl, by decide +kernel, rfl, rfl, by decide +kernel, by decide +kernel⟩

/-- V61's moment: timer 2 started at 255 with `T[2].acc` = 80 and `usec_acc` = 20. -/
def phased : State := { busy with timer2 := t2 true false 0 255 80 false, usecAcc := 20 }

/-- Timer 2 of `phased` first overflows after 320 - 80 - 20 = 220 microseconds (V61): both sides of the boundary. -/
theorem witness_FirstOverflowTime_timer2 :
    phased.Inv ∧ phased.PhaseInv ∧ phased.cfg.tickUs = 80 ∧ (0 : Rat) ≤ 220 ∧ (phased.timer .two).enabled = true ∧
    (phased.timer .two).elapsed = false ∧
    (nextOf (exec (.run 220) phased)).map (fun t => t.timer2.elapsed) = some true ∧
    (nextOf (exec (.run (220 - 1 / 256)) phased)).map (fun t => t.timer2.elapsed) = some false :=
  ⟨{ witness_invariant.1 with
      timer2 := by constructor <;> decide +kernel
      usecAcc_nonneg := by decide +kernel
      usecAcc_lt := by decide +kernel },
    fun _ => ⟨rfl, .inr (.inl rfl)⟩, rfl, by decide +kernel, rfl, rfl, by decide +kernel, by decide +kernel⟩

theorem witness_SoftResetClearsShadowAndStatistics :
    (Instr.reset = .reset ∧ (48000 : Nat) = busySwitched.sampleRate) ∧ Instr.resetr 0 = .resetr 0 := ⟨⟨rfl, rfl⟩, rfl⟩

theorem witness_SecondSoftResetOnlyLogs :
    (Instr.reset = .reset ∧ (48000 : Nat) = busy.sampleRate) ∧ Instr.resetr 44100 = .resetr 44100 := ⟨⟨rfl, rfl⟩, rfl⟩

theorem witness_CoreLogGainsExactlyTheEventsNamed : ∃ t, exec (.wdata .secondary true 7) busy = .next t := ⟨_, rfl⟩

theorem witness_StatisticsCountTheEventsNamed : ∃ t, exec .rstat busy = .next t := ⟨_, rfl⟩

/-- Each clause: a shadow byte changed by a store and by a reset, a latch, the rate, an accumulator. -/
theorem witness_OnlyTheNamedOperationsWriteEachRegister :
    (∃ t, exec (.wreg .primary false 0x02 1) busy = .next t ∧ t.shadowRead .primary 2 ≠ busy.shadowRead .primary 2) ∧
    (∃ t, exec .reset busy = .next t ∧ t.shadowRead .secondary 5 ≠ busy.shadowRead .secondary 5) ∧
    (∃ t, exec (.waddr .primary 9) busy = .next t ∧ t.latch .primary ≠ busy.latch .primary) ∧
    (∃ t, exec (.resetr 0) busy = .next t ∧ t.sampleRate ≠ busy.sampleRate) ∧
    (nextOf (exec (.run 1) busy)).map (fun t => decide (t.usecAcc ≠ busy.usecAcc)) = some true :=
  ⟨⟨_, rfl, by decide⟩, ⟨_, rfl, by decide⟩, ⟨_, rfl, by decide⟩, ⟨_, rfl, by decide⟩, by decide +kernel⟩

/-- Each clause: flags, `preset` under its switch, `counter` by each of its three writers, `acc`, `elapsed` set and cleared. -/
theorem witness_OnlyTheNamedOperationsWriteEachTimerAttribute :
    (nextOf (exec (.wreg .primary false 0x04 0x00) busy)).map (fun t => (t.timer1.enabled, t.timer2.masked)) =
      some (false, false) ∧
    (nextOf (exec (.wreg .primary false 0x02 0xFD) busySwitched)).map (fun t => (t.timer1.preset, t.timer1.counter)) =
      some (0xFD, 0xFD) ∧
    (nextOf (exec (.run 81) busy)).map (fun t => (t.timer1.counter, t.timer1.elapsed, t.timer2.acc)) = some (0, true, 80) ∧
    (nextOf (exec .reset busySwitched)).map (fun t => (t.timer1.counter, t.timer2.elapsed)) = some (0, false) ∧
    (nextOf (exec (.wreg .primary false 0x04 0x80) busy)).map (fun t => t.timer2.elapsed) = some false := by
  decide +kernel

theorem witness_StatusIgnoresEverythingButTheTimeline :
    SameTimeline busy { busy with shadowP := [], stats := ⟨0, 0, 0, 0⟩, sampleRate := 0, coreLog := [] } ∧
    ∃ t, execAll [.rstat, .wdata .primary false 0x80] busy = .next t :=
  ⟨⟨rfl, fun i => by cases i <;> rfl, rfl, fun f => by cases f <;> rfl⟩, _, rfl⟩

end Sys2Proof.Tests
end

section
/-! The block as built (R181): its timers and the invariants of R10 and R19. -/

namespace Sys2Proof

/-- Both rates (D8) are positive, so the prescaler's range `0 ≤ acc < rate` (R17) holds 0. -/
theorem Config.timerRate_pos (i : TimerId) : 0 < Config.timerRate i := by
  cases i <;> decide

theorem Config.standard_valid : Config.standard.valid := by decide +kernel

end Sys2Proof

namespace Sys2Proof.Machine

theorem Timer.powerOn_inv (c : Config) (i : TimerId) : (Timer.powerOn c i).Inv c i where
  rate_eq := rfl
  acc_nonneg := le_rfl
  acc_lt := Nat.cast_pos.2 (Config.timerRate_pos i)
  preset_eq _ := rfl

/-- Only `usec_acc` < `TICK_US` needs the parameter of R5 to be positive: the range would be empty otherwise. -/
theorem State.powerOn_inv {c : Config} (hc : c.valid) : (State.powerOn c).Inv where
  cfg_valid := hc
  timer1 := Timer.powerOn_inv c .one
  timer2 := Timer.powerOn_inv c .two
  shadowP_wf := Memory.cleared_wf
  shadowS_wf := Memory.cleared_wf
  sampleAcc_nonneg := le_rfl
  sampleAcc_lt := zero_lt_one
  usecAcc_nonneg := le_rfl
  usecAcc_lt := hc
  samplesGenerated_eq := rfl
  coreLog_head := rfl

theorem State.powerOn_phaseInv (c : Config) : (State.powerOn c).PhaseInv :=
  fun _ => ⟨rfl, .inl rfl⟩

/-- Settles O7: field by field at power-on, and reset is the power-on of the standard parameters. -/
theorem invariantHoldsAtPowerOn : Obligations.InvariantHoldsAtPowerOn :=
  ⟨fun c hc => ⟨State.powerOn_inv hc, State.powerOn_phaseInv c⟩,
    State.powerOn_inv Config.standard_valid, State.powerOn_phaseInv Config.standard⟩

end Sys2Proof.Machine
end

section
/-! What an operation that completes can do, said once (spec/42_port_ops.md, spec/43_system_ops.md): each operation's next state,
what it does to each component, and what it does to each timer. -/

namespace Sys2Proof.Machine

/-! ### Register writes, soft resets and RUN, component by component -/

section
variable (s : State) (loc : Loc) (v : Byte) (b : Bool)

@[simp] theorem State.writeRegister_cfg : (s.writeRegister loc v b).cfg = s.cfg := by rw [State.writeRegister_eq]
@[simp] theorem State.writeRegister_sampleRate : (s.writeRegister loc v b).sampleRate = s.sampleRate := by
  rw [State.writeRegister_eq]
@[simp] theorem State.writeRegister_sampleAcc : (s.writeRegister loc v b).sampleAcc = s.sampleAcc := by
  rw [State.writeRegister_eq]
@[simp] theorem State.writeRegister_usecAcc : (s.writeRegister loc v b).usecAcc = s.usecAcc := by
  rw [State.writeRegister_eq]
@[simp] theorem State.writeRegister_pending : (s.writeRegister loc v b).pending = s.pending := by
  rw [State.writeRegister_eq]
@[simp] theorem State.writeRegister_stats :
    (s.writeRegister loc v b).stats = { s.stats with dataWrites := s.stats.dataWrites + 1 } := by
  rw [State.writeRegister_eq]
@[simp] theorem State.writeRegister_coreLog :
    (s.writeRegister loc v b).coreLog = s.coreLog ++
      [if b then .coreWriteBuffered (coreIndex loc.1 loc.2) v else .coreWrite (coreIndex loc.1 loc.2) v] := by
  rw [State.writeRegister_eq]
@[simp] theorem State.writeRegister_latch (f : RegFile) : (s.writeRegister loc v b).latch f = s.latch f := by
  rw [State.writeRegister_eq]; cases f <;> rfl
@[simp] theorem State.writeRegister_timer (k : TimerId) :
    (s.writeRegister loc v b).timer k = (s.intercept loc.1 loc.2 v).timer k := by
  rw [State.writeRegister_eq]; cases k <;> rfl
@[simp] theorem State.writeRegister_shadow (f : RegFile) :
    (s.writeRegister loc v b).shadow f = (s.shadowWrite loc.1 loc.2 v).shadow f := by
  rw [State.writeRegister_eq]; cases f <;> rfl

end

section
variable (s : State) (hz : Nat)

@[simp] theorem State.softReset_cfg : (s.softReset hz).cfg = s.cfg := by rw [State.softReset_eq]
@[simp] theorem State.softReset_sampleRate : (s.softReset hz).sampleRate = s.sampleRate := by rw [State.softReset_eq]
@[simp] theorem State.softReset_sampleAcc : (s.softReset hz).sampleAcc = s.sampleAcc := by rw [State.softReset_eq]
@[simp] theorem State.softReset_usecAcc : (s.softReset hz).usecAcc = s.usecAcc := by rw [State.softReset_eq]
@[simp] theorem State.softReset_pending : (s.softReset hz).pending = s.pending := by rw [State.softReset_eq]
@[simp] theorem State.softReset_stats : (s.softReset hz).stats = Stats.zero := by rw [State.softReset_eq]
@[simp] theorem State.softReset_coreLog : (s.softReset hz).coreLog = s.coreLog ++ [.coreReset hz] := by
  rw [State.softReset_eq]
@[simp] theorem State.softReset_latch (f : RegFile) : (s.softReset hz).latch f = s.latch f := by
  rw [State.softReset_eq]; cases f <;> rfl
@[simp] theorem State.softReset_shadow (f : RegFile) : (s.softReset hz).shadow f = Memory.cleared := by
  rw [State.softReset_eq]; cases f <;> rfl
@[simp] theorem State.softReset_timer (k : TimerId) :
    (s.softReset hz).timer k =
      if s.cfg.softResetClearsTimers then { s.timer k with counter := 0, elapsed := false } else s.timer k := by
  rw [State.softReset_eq]; cases k <;> rfl

end

section
variable (s : State) (e : Rat)

/-- `advance_timers` writes `usec_acc`, and ticks both timers equally often. -/
theorem State.advanceTimers_frame :
    ∃ (m : Nat) (u : Rat), s.advanceTimers e =
      { s with
        timer1 := (Timer.tick s.cfg.tickUs)^[m] s.timer1
        timer2 := (Timer.tick s.cfg.tickUs)^[m] s.timer2
        usecAcc := u } := by
  obtain ⟨m, h⟩ :=
    State.shellTicks_frame { s with usecAcc := s.usecAcc + e } (loopPasses (s.usecAcc + e) s.cfg.tickUs)
  exact ⟨m, _, h⟩

/-- What `advance_timers` leaves in `usec_acc` (R141). -/
theorem State.advanceTimers_usecAcc {s : State} {e : Rat} (hv : s.cfg.valid) (h : 0 ≤ s.usecAcc + e) :
    (s.advanceTimers e).usecAcc = s.usecAcc + e - loopPasses (s.usecAcc + e) s.cfg.tickUs * s.cfg.tickUs := by
  rw [State.advanceTimers, State.shellTicks_eq { s with usecAcc := s.usecAcc + e } _ hv (loopPasses_spec h hv).1]

theorem State.advanceTimers_timer :
    ∃ m : Nat, ∀ k, (s.advanceTimers e).timer k = (Timer.tick s.cfg.tickUs)^[m] (s.timer k) := by
  obtain ⟨m, u, h⟩ := s.advanceTimers_frame e
  exact ⟨m, fun k => by rw [h]; cases k <;> rfl⟩

@[simp] theorem State.advanceTimers_cfg : (s.advanceTimers e).cfg = s.cfg := by
  obtain ⟨m, u, h⟩ := s.advanceTimers_frame e; rw [h]
@[simp] theorem State.advanceTimers_sampleRate : (s.advanceTimers e).sampleRate = s.sampleRate := by
  obtain ⟨m, u, h⟩ := s.advanceTimers_frame e; rw [h]
@[simp] theorem State.advanceTimers_sampleAcc : (s.advanceTimers e).sampleAcc = s.sampleAcc := by
  obtain ⟨m, u, h⟩ := s.advanceTimers_frame e; rw [h]
@[simp] theorem State.advanceTimers_pending : (s.advanceTimers e).pending = s.pending := by
  obtain ⟨m, u, h⟩ := s.advanceTimers_frame e; rw [h]
@[simp] theorem State.advanceTimers_stats : (s.advanceTimers e).stats = s.stats := by
  obtain ⟨m, u, h⟩ := s.advanceTimers_frame e; rw [h]
@[simp] theorem State.advanceTimers_coreLog : (s.advanceTimers e).coreLog = s.coreLog := by
  obtain ⟨m, u, h⟩ := s.advanceTimers_frame e; rw [h]
@[simp] theorem State.advanceTimers_latch (f : RegFile) : (s.advanceTimers e).latch f = s.latch f := by
  obtain ⟨m, u, h⟩ := s.advanceTimers_frame e; rw [h]; cases f <;> rfl
@[simp] theorem State.advanceTimers_shadow (f : RegFile) : (s.advanceTimers e).shadow f = s.shadow f := by
  obtain ⟨m, u, h⟩ := s.advanceTimers_frame e; rw [h]; cases f <;> rfl

@[simp] theorem State.sampleCount_cfg : (s.sampleCount e).cfg = s.cfg := rfl
@[simp] theorem State.sampleCount_sampleRate : (s.sampleCount e).sampleRate = s.sampleRate := rfl
@[simp] theorem State.sampleCount_sampleAcc : (s.sampleCount e).sampleAcc = s.framesDue e - ⌊s.framesDue e⌋₊ := rfl
@[simp] theorem State.sampleCount_usecAcc : (s.sampleCount e).usecAcc = s.usecAcc := rfl
@[simp] theorem State.sampleCount_pending : (s.sampleCount e).pending = s.pending := rfl
@[simp] theorem State.sampleCount_stats : (s.sampleCount e).stats = s.stats := rfl
@[simp] theorem State.sampleCount_coreLog : (s.sampleCount e).coreLog = s.coreLog := rfl
@[simp] theorem State.sampleCount_latch (f : RegFile) : (s.sampleCount e).latch f = s.latch f := by cases f <;> rfl
@[simp] theorem State.sampleCount_shadow (f : RegFile) : (s.sampleCount e).shadow f = s.shadow f := by cases f <;> rfl
@[simp] theorem State.sampleCount_timer (k : TimerId) : (s.sampleCount e).timer k = s.timer k := by cases k <;> rfl

/-- The frames due do not depend on the timers' part of RUN. -/
@[simp] theorem State.advanceTimers_framesDue (e' : Rat) : (s.advanceTimers e).framesDue e' = s.framesDue e' := by
  simp [State.framesDue]

end

/-! ### The operations -/

/-- The operations that store to the shadow, and where. -/
theorem storeOf_eq_some {s : State} {i : Instr} {loc : Loc} {v : Byte} (h : storeOf s i = some (loc, v)) :
    (∃ f b, i = .wdata f b v ∧ loc = latchedLoc s f) ∨ (∃ f b r, i = .wreg f b r v ∧ loc = directLoc f r) := by
  cases i with
  | wdata f b d => cases h; exact .inl ⟨f, b, rfl, rfl⟩
  | wreg f b r d => cases h; exact .inr ⟨f, b, r, rfl, rfl⟩
  | _ => cases h

/-- The state an operation leaves, by the kind of the operation: WDATA and WREG are one register write at the location of
`storeOf`, RESET and RESETR one soft reset at the rate then held. -/
inductive Effect (s : State) : Instr → State → Prop where
  | latch (f : RegFile) (a : Byte) : Effect s (.waddr f a) (((s.setLatch f a).countAddrWrite).respond .none)
  | store {i : Instr} {loc : Loc} {v : Byte} (b : Bool) (hi : storeOf s i = some (loc, v)) :
      Effect s i ((s.writeRegister loc v b).respond .none)
  | lookup (f : RegFile) (r : Byte) : Effect s (.rreg f r) (s.respond (.byte (s.shadowRead f r)))
  | status : Effect s .rstat (s.countStatusRead.respond (.byte s.statusByte))
  | advance {e : Rat} (he : 0 ≤ e) : Effect s (.run e) ((s.advanceTimers e).sampleCount e)
  | reset {i : Instr} {hz : Nat} (hi : (i = .reset ∧ hz = s.sampleRate) ∨ i = .resetr hz) :
      Effect s i ((({ s with sampleRate := hz } : State).softReset hz).respond .none)
  | record : Effect s .stats
      (s.respond (.stats s.stats.dataWrites s.stats.addrWrites s.stats.statusReads s.stats.samplesGenerated))

/-- An operation that completes had its effect. -/
theorem effect_of_exec {i : Instr} {s t : State} (h : exec i s = .next t) : Effect s i t := by
  cases i with
  | waddr f a => cases h; exact .latch f a
  | wdata f b d => cases h; exact .store b rfl
  | wreg f b r d => cases h; exact .store b rfl
  | rreg f r => cases h; exact .lookup f r
  | rstat => cases h; exact .status
  | run e =>
    simp only [exec, execRun] at h
    split at h
    · cases h
    · rename_i he
      cases h
      exact .advance (not_lt.1 he)
  | reset => cases h; exact .reset (.inl ⟨rfl, rfl⟩)
  | resetr hz => cases h; exact .reset (.inr rfl)
  | stats => cases h; exact .record

/-- The only effect of RUN. -/
theorem Effect.of_run {s t : State} {e : Rat} (h : Effect s (.run e) t) :
    0 ≤ e ∧ t = (s.advanceTimers e).sampleCount e := by
  cases h with
  | advance he => exact ⟨he, rfl⟩
  | store b hi => cases hi
  | reset hi => rcases hi with ⟨hi, -⟩ | hi <;> cases hi

/-- Every operation in its domain completes (R160). -/
theorem exec_of_inDomain {i : Instr} (hi : i.inDomain = true) (s : State) : ∃ t, exec i s = .next t := by
  cases i with
  | run e => exact ⟨_, if_neg (not_lt.2 (of_decide_eq_true hi))⟩
  | _ => exact ⟨_, rfl⟩

namespace Effect

variable {s t : State} {i : Instr} (h : Effect s i t)
include h

/-! ### What an operation does to each component -/

theorem sameHostSide : SameHostSide s t := by
  cases h <;> constructor <;> simp

/-- The log only grows (R27). -/
theorem coreLog_append : ∃ es, t.coreLog = s.coreLog ++ es := by
  cases h with
  | store b hi => exact ⟨_, State.writeRegister_coreLog ..⟩
  | reset hi => exact ⟨_, State.softReset_coreLog ..⟩
  | _ => exact ⟨[], by simp⟩

theorem shadow_cases (f : RegFile) :
    t.shadow f = s.shadow f ∨
    (∃ a v, storeOf s i = some ((f, a), v) ∧ t.shadow f = (s.shadow f).write a.toNat v) ∨
    ((i = .reset ∨ ∃ hz, i = .resetr hz) ∧ t.shadow f = Memory.cleared) := by
  cases h with
  | @store i loc v b hi =>
    obtain ⟨g, a⟩ := loc
    by_cases hg : f = g
    · subst hg
      exact .inr (.inl ⟨a, v, hi, by simp [State.shadow_shadowWrite_same]⟩)
    · exact .inl (by simp [State.shadow_shadowWrite_ne _ _ _ _ _ hg])
  | reset hi => exact .inr (.inr ⟨hi.imp And.left fun h => ⟨_, h⟩, by simp⟩)
  | _ => exact .inl (by simp)

theorem shadowRead_cases (f : RegFile) (a : Byte) :
    t.shadowRead f a = s.shadowRead f a ∨
    (∃ v, storeOf s i = some ((f, a), v) ∧ t.shadowRead f a = v) ∨
    ((i = .reset ∨ ∃ hz, i = .resetr hz) ∧ t.shadowRead f a = 0) := by
  simp only [State.shadowRead_eq]
  rcases h.shadow_cases f with hs | ⟨c, v, hi, hs⟩ | ⟨hi, hs⟩
  · exact .inl (by rw [hs])
  · by_cases hc : a = c
    · subst hc
      exact .inr (.inl ⟨v, hi, by rw [hs, Memory.read_write, if_pos rfl]⟩)
    · exact .inl (by rw [hs, Memory.read_write, if_neg (by rw [BitVec.toNat_inj]; exact Ne.symm hc)])
  · exact .inr (.inr ⟨hi, by rw [hs, Memory.read_cleared]; rfl⟩)

theorem latch_cases (f : RegFile) : t.latch f = s.latch f ∨ i = .waddr f (t.latch f) := by
  cases h with
  | latch g a =>
    by_cases hg : f = g
    · subst hg; exact .inr (by simp)
    · exact .inl (by simp [State.setLatch_latch_ne _ _ _ _ hg])
  | reset hi => exact .inl (State.softReset_latch ..)
  | _ => exact .inl (by simp)

theorem sampleRate_cases : t.sampleRate = s.sampleRate ∨ i = .resetr t.sampleRate := by
  cases h with
  | reset hi => exact hi.imp (fun h => by simp [h.2]) fun h => by simp [h]
  | _ => exact .inl (by simp)

theorem accumulators_cases : (t.sampleAcc = s.sampleAcc ∧ t.usecAcc = s.usecAcc) ∨ ∃ e, i = .run e := by
  cases h with
  | advance he => exact .inr ⟨_, rfl⟩
  | _ => exact .inl (by simp)

/-- Nothing counts `samples_generated` (D16). -/
theorem samplesGenerated_eq (h0 : s.stats.samplesGenerated = 0) : t.stats.samplesGenerated = 0 := by
  cases h with
  | reset hi => simp [Stats.zero]
  | _ => simpa using h0

end Effect

end Sys2Proof.Machine
end

section
/-! What an operation can do to each timer, said once (R91 to R97, R144), and how the prescaler moves (R91). -/

namespace Sys2Proof.Machine

/-! ### Ticks -/

/-- What ticks can do to a timer (R91, R92): move `acc`, and, if it is enabled, step `counter` and set `elapsed`. -/
structure Timer.OnlyTicked (t x : Timer) : Prop where
  enabled : x.enabled = t.enabled
  masked : x.masked = t.masked
  rate : x.rate = t.rate
  preset : x.preset = t.preset
  elapsed_mono : t.elapsed = true → x.elapsed = true
  of_disabled : t.enabled = false → x = { t with acc := x.acc }

theorem Timer.OnlyTicked.refl (t : Timer) : t.OnlyTicked t := ⟨rfl, rfl, rfl, rfl, id, fun _ => rfl⟩

theorem Timer.OnlyTicked.trans {t x y : Timer} (h : t.OnlyTicked x) (h' : x.OnlyTicked y) : t.OnlyTicked y where
  enabled := h'.enabled.trans h.enabled
  masked := h'.masked.trans h.masked
  rate := h'.rate.trans h.rate
  preset := h'.preset.trans h.preset
  elapsed_mono := h'.elapsed_mono ∘ h.elapsed_mono
  of_disabled hd := by rw [h'.of_disabled (h.enabled.trans hd), h.of_disabled hd]

theorem Timer.onlyTicked_tick (e : Rat) (t : Timer) : t.OnlyTicked (Timer.tick e t) := by
  obtain ⟨he, hm, hr, hp, hmono, hd⟩ := t.tick_frame e
  exact ⟨he, hm, hr, hp, hmono, hd⟩

theorem Timer.onlyTicked_iterate_tick (e : Rat) (m : Nat) (t : Timer) : t.OnlyTicked ((Timer.tick e)^[m] t) :=
  iterate_induction (fun x hx => hx.trans (Timer.onlyTicked_tick e x)) m (.refl t)

theorem Timer.iterate_count_acc (n : Nat) (t : Timer) : (Timer.count^[n] t).acc = t.acc :=
  iterate_induction (P := fun x : Timer => x.acc = t.acc) (fun x hx => x.count_acc.trans hx) n rfl

/-- `tick` takes as many whole `rate`s out of the prescaler as it holds (R91). -/
theorem Timer.tick_acc {t : Timer} {e : Rat} (hr : 0 < t.rate) (h : 0 ≤ t.acc + e) :
    (Timer.tick e t).acc = t.acc + e - loopPasses (t.acc + e) t.rate * t.rate := by
  have hle := (loopPasses_spec h (Nat.cast_pos.2 hr : (0 : Rat) < t.rate)).1
  rw [Timer.tick, Timer.drain_eq { t with acc := t.acc + e } _ hle, Timer.iterate_count_acc]

/-! ### What an operation does to a timer -/

/-- What an operation leaves in timer `k`, by what it did to it (the table of R10; R125, R126, R141, R144). -/
inductive TimerEffect (s : State) (i : Instr) (k : TimerId) : Timer → Prop where
  | kept : TimerEffect s i k (s.timer k)
  | ticked {e : Rat} (m : Nat) (hi : i = .run e) : TimerEffect s i k ((Timer.tick s.cfg.tickUs)^[m] (s.timer k))
  | loaded {v : Byte} (hi : storeOf s i = some ((.primary, counterReg k), v)) :
      TimerEffect s i k (Timer.setCounter s.cfg.regWriteLoadsPreset v (s.timer k))
  | acknowledged {v : Byte} (hi : storeOf s i = some ((.primary, 0x04#8), v)) (hv : v.getLsbD 7 = true) :
      TimerEffect s i k { s.timer k with elapsed := false }
  | controlled {v : Byte} (masked enabled : Bool) (hi : storeOf s i = some ((.primary, 0x04#8), v))
      (hv : v.getLsbD 7 = false) : TimerEffect s i k { s.timer k with masked := masked, enabled := enabled }
  | cleared (hi : i = .reset ∨ ∃ hz, i = .resetr hz) (hc : s.cfg.softResetClearsTimers = true) :
      TimerEffect s i k { s.timer k with counter := 0, elapsed := false }

/-- A register write reaches a timer by the intercept (R123 step 2). -/
theorem timerEffect_intercept {s : State} {i : Instr} {f : RegFile} {r v : Byte} (hi : storeOf s i = some ((f, r), v))
    (k : TimerId) : TimerEffect s i k ((s.intercept f r v).timer k) := by
  rcases s.intercept_cases f r v with ⟨rfl, rfl, h⟩ | ⟨rfl, rfl, h⟩ | ⟨rfl, rfl, hv, h⟩ | ⟨rfl, rfl, hv, h⟩ | ⟨-, h⟩ <;>
    rw [h]
  · cases k
    · exact .loaded hi
    · exact .kept
  · cases k
    · exact .kept
    · exact .loaded hi
  · cases k <;> exact .acknowledged hi hv
  · cases k <;> exact .controlled _ _ hi hv
  · exact .kept

theorem Effect.timerEffect {s t : State} {i : Instr} (h : Effect s i t) (k : TimerId) : TimerEffect s i k (t.timer k) := by
  cases h with
  | @store i loc v b hi =>
    rw [State.respond_timer, State.writeRegister_timer]
    exact timerEffect_intercept hi k
  | @advance e he =>
    obtain ⟨m, hm⟩ := s.advanceTimers_timer e
    rw [State.sampleCount_timer, hm]
    exact .ticked m rfl
  | @reset i hz hi =>
    rw [State.respond_timer, State.softReset_timer]
    by_cases hc : s.cfg.softResetClearsTimers = true
    · rw [if_pos hc]
      cases k <;> exact .cleared (hi.imp And.left fun h => ⟨_, h⟩) hc
    · rw [if_neg hc]
      cases k <;> exact .kept
  | _ => simpa using .kept

namespace TimerEffect

variable {s : State} {i : Instr} {k : TimerId} {x : Timer} (h : TimerEffect s i k x)
include h

theorem rate_eq : x.rate = (s.timer k).rate := by
  cases h with
  | ticked m hi => exact (Timer.onlyTicked_iterate_tick ..).rate
  | loaded hi => unfold Timer.setCounter; split <;> rfl
  | _ => rfl

theorem flags_cases :
    (x.enabled = (s.timer k).enabled ∧ x.masked = (s.timer k).masked) ∨
    ∃ v, storeOf s i = some ((.primary, 0x04#8), v) ∧ v.getLsbD 7 = false := by
  cases h with
  | ticked m hi =>
    have ht := Timer.onlyTicked_iterate_tick s.cfg.tickUs m (s.timer k)
    exact .inl ⟨ht.enabled, ht.masked⟩
  | loaded hi => unfold Timer.setCounter; split <;> exact .inl ⟨rfl, rfl⟩
  | @controlled v m e hi hv => exact .inr ⟨v, hi, hv⟩
  | _ => exact .inl ⟨rfl, rfl⟩

theorem preset_cases :
    x.preset = (s.timer k).preset ∨
    (s.cfg.regWriteLoadsPreset = true ∧ storeOf s i = some ((.primary, counterReg k), x.preset)) := by
  cases h with
  | ticked m hi => exact .inl (Timer.onlyTicked_iterate_tick ..).preset
  | loaded hi =>
    unfold Timer.setCounter
    split
    · next hl => exact .inr ⟨hl, hi⟩
    · exact .inl rfl
  | _ => exact .inl rfl

theorem counter_cases :
    x.counter = (s.timer k).counter ∨
    ((∃ e, i = .run e) ∧ (s.timer k).enabled = true) ∨
    storeOf s i = some ((.primary, counterReg k), x.counter) ∨
    ((i = .reset ∨ ∃ hz, i = .resetr hz) ∧ s.cfg.softResetClearsTimers = true ∧ x.counter = 0) := by
  cases h with
  | ticked m hi =>
    cases he : (s.timer k).enabled
    · exact .inl (by rw [(Timer.onlyTicked_iterate_tick ..).of_disabled he])
    · exact .inr (.inl ⟨⟨_, hi⟩, rfl⟩)
  | loaded hi => unfold Timer.setCounter; split <;> exact .inr (.inr (.inl hi))
  | cleared hi hc => exact .inr (.inr (.inr ⟨hi, hc, rfl⟩))
  | _ => exact .inl rfl

theorem acc_cases :
    x.acc = (s.timer k).acc ∨ ∃ (e : Rat) (m : Nat), i = .run e ∧ x = (Timer.tick s.cfg.tickUs)^[m] (s.timer k) := by
  cases h with
  | ticked m hi => exact .inr ⟨_, m, hi, rfl⟩
  | loaded hi => unfold Timer.setCounter; split <;> exact .inl rfl
  | _ => exact .inl rfl

theorem elapsed_cases :
    x.elapsed = (s.timer k).elapsed ∨
    ((∃ e, i = .run e) ∧ (s.timer k).enabled = true ∧ ((s.timer k).elapsed = true → x.elapsed = true)) ∨
    (x.elapsed = false ∧
      ((∃ v, storeOf s i = some ((.primary, 0x04#8), v) ∧ v.getLsbD 7 = true) ∨
        ((i = .reset ∨ ∃ hz, i = .resetr hz) ∧ s.cfg.softResetClearsTimers = true))) := by
  cases h with
  | ticked m hi =>
    have ht := Timer.onlyTicked_iterate_tick s.cfg.tickUs m (s.timer k)
    cases he : (s.timer k).enabled
    · exact .inl (by rw [ht.of_disabled he])
    · exact .inr (.inl ⟨⟨_, hi⟩, rfl, ht.elapsed_mono⟩)
  | loaded hi => unfold Timer.setCounter; split <;> exact .inl rfl
  | acknowledged hi hv => exact .inr (.inr ⟨rfl, .inl ⟨_, hi, hv⟩⟩)
  | cleared hi hc => exact .inr (.inr ⟨rfl, .inr ⟨hi, hc⟩⟩)
  | _ => exact .inl rfl

end TimerEffect

end Sys2Proof.Machine
end
section
/-! Steps (R31, R48): the command a step takes, and what every step keeps: the ranges of R10 and the prescaler phase of R19. -/

namespace Sys2Proof.Machine

/-! ### The next command -/

theorem Command.instr_word {w : Word} {i : Instr} (h : decode w = .ok i) : (Command.word w).instr = .ok i := by
  simp only [Command.instr, h]

theorem step_of_pending_nil {s : State} (h : s.pending = []) : step s = .next s := by
  simp only [step, State.fetch, h, State.idle]

theorem step_of_instr_ok {s : State} {c : Command} {rest : List Command} {i : Instr} (h : s.pending = c :: rest)
    (hc : c.instr = .ok i) : step s = exec i { s with pending := rest } := by
  simp only [step, State.fetch, h, hc]

theorem step_of_instr_error {s : State} {c : Command} {rest : List Command} {r : Refusal} (h : s.pending = c :: rest)
    (hc : c.instr = .error r) : step s = .refused r := by
  simp only [step, State.fetch, h, hc]

/-- A step that answers a next state was idle, or had the effect of one operation. -/
theorem step_cases {s t : State} (h : step s = .next t) :
    t = s ∨ ∃ (rest : List Command) (i : Instr), Effect { s with pending := rest } i t := by
  cases hp : s.pending with
  | nil =>
    rw [step_of_pending_nil hp] at h
    cases h
    exact .inl rfl
  | cons c rest =>
    cases hc : c.instr with
    | ok i =>
      rw [step_of_instr_ok hp hc] at h
      exact .inr ⟨rest, i, effect_of_exec h⟩
    | error r =>
      rw [step_of_instr_error hp hc] at h
      cases h

/-! ### The ranges -/

theorem Timer.Inv.rate_pos {c : Config} {i : TimerId} {t : Timer} (h : t.Inv c i) : 0 < t.rate :=
  h.rate_eq ▸ Config.timerRate_pos i

theorem Timer.Inv.tick {c : Config} {i : TimerId} {t : Timer} (h : t.Inv c i) {e : Rat} (he : 0 ≤ e) :
    (Timer.tick e t).Inv c i := by
  have ht := Timer.onlyTicked_tick e t
  have h0 : 0 ≤ t.acc + e := add_nonneg h.acc_nonneg he
  have hacc := Timer.tick_acc h.rate_pos h0
  obtain ⟨hle, hlt⟩ := loopPasses_spec h0 (Nat.cast_pos.2 h.rate_pos : (0 : Rat) < t.rate)
  exact {
    rate_eq := ht.rate.trans h.rate_eq
    acc_nonneg := by rw [hacc]; linarith
    acc_lt := by rw [hacc, ht.rate]; linarith
    preset_eq := fun hc => ht.preset.trans (h.preset_eq hc) }

theorem TimerEffect.keeps_inv {s : State} {i : Instr} {k : TimerId} {x : Timer} (h : TimerEffect s i k x)
    (hv : s.cfg.valid) (hs : (s.timer k).Inv s.cfg k) : x.Inv s.cfg k := by
  have hacc : 0 ≤ x.acc ∧ x.acc < x.rate := by
    rcases h.acc_cases with ha | ⟨e, m, -, rfl⟩
    · rw [ha, h.rate_eq]
      exact ⟨hs.acc_nonneg, hs.acc_lt⟩
    · have ht : ((Timer.tick s.cfg.tickUs)^[m] (s.timer k)).Inv s.cfg k :=
        iterate_induction (fun x hx => hx.tick hv.le) m hs
      exact ⟨ht.acc_nonneg, ht.acc_lt⟩
  refine ⟨h.rate_eq.trans hs.rate_eq, hacc.1, hacc.2, fun hc => ?_⟩
  rcases h.preset_cases with hp | ⟨hl, -⟩
  · exact hp.trans (hs.preset_eq hc)
  · exact absurd (hc.symm.trans hl) Bool.false_ne_true

theorem sub_natFloor_range {x : Rat} (hx : 0 ≤ x) : 0 ≤ x - ⌊x⌋₊ ∧ x - ⌊x⌋₊ < 1 :=
  ⟨sub_nonneg.2 (Nat.floor_le hx), sub_lt_iff_lt_add'.2 (Nat.lt_floor_add_one x)⟩

theorem State.framesDue_nonneg {s : State} {e : Rat} (hs : 0 ≤ s.sampleAcc) (he : 0 ≤ e) : 0 ≤ s.framesDue e :=
  add_nonneg hs (div_nonneg (mul_nonneg he s.sampleRate.cast_nonneg) (by decide +kernel))

namespace Effect

variable {s t : State} {i : Instr} (h : Effect s i t)
include h

theorem keeps_shadow_wf {f : RegFile} (hf : (s.shadow f).wf = true) : (t.shadow f).wf = true := by
  rcases h.shadow_cases f with hs | ⟨a, v, -, hs⟩ | ⟨-, hs⟩ <;> rw [hs]
  · exact hf
  · exact Memory.write_wf hf a v
  · exact Memory.cleared_wf

theorem keeps_sampleAcc_range (hs : 0 ≤ s.sampleAcc ∧ s.sampleAcc < 1) : 0 ≤ t.sampleAcc ∧ t.sampleAcc < 1 := by
  rcases h.accumulators_cases with ⟨ha, -⟩ | ⟨e, rfl⟩
  · rwa [ha]
  · obtain ⟨he, rfl⟩ := h.of_run
    simpa using sub_natFloor_range (State.framesDue_nonneg hs.1 he)

theorem keeps_usecAcc_range (hv : s.cfg.valid) (hs : 0 ≤ s.usecAcc ∧ s.usecAcc < s.cfg.tickUs) :
    0 ≤ t.usecAcc ∧ t.usecAcc < s.cfg.tickUs := by
  rcases h.accumulators_cases with ⟨-, hu⟩ | ⟨e, rfl⟩
  · rwa [hu]
  · obtain ⟨he, rfl⟩ := h.of_run
    have h0 : 0 ≤ s.usecAcc + e := add_nonneg hs.1 he
    obtain ⟨hle, hlt⟩ := loopPasses_spec h0 hv
    rw [State.sampleCount_usecAcc, State.advanceTimers_usecAcc hv h0]
    constructor <;> linarith

/-- Every operation keeps the ranges of R10. -/
theorem keeps_inv (hs : s.Inv) : t.Inv := by
  obtain ⟨hcfg, -⟩ := h.sameHostSide
  obtain ⟨es, hlog⟩ := h.coreLog_append
  have hsample := h.keeps_sampleAcc_range ⟨hs.sampleAcc_nonneg, hs.sampleAcc_lt⟩
  have husec := h.keeps_usecAcc_range hs.cfg_valid ⟨hs.usecAcc_nonneg, hs.usecAcc_lt⟩
  rw [← hcfg] at husec
  exact {
    cfg_valid := hcfg ▸ hs.cfg_valid
    timer1 := hcfg ▸ (h.timerEffect .one).keeps_inv hs.cfg_valid hs.timer1
    timer2 := hcfg ▸ (h.timerEffect .two).keeps_inv hs.cfg_valid hs.timer2
    shadowP_wf := h.keeps_shadow_wf (f := .primary) hs.shadowP_wf
    shadowS_wf := h.keeps_shadow_wf (f := .secondary) hs.shadowS_wf
    sampleAcc_nonneg := hsample.1
    sampleAcc_lt := hsample.2
    usecAcc_nonneg := husec.1
    usecAcc_lt := husec.2
    samplesGenerated_eq := h.samplesGenerated_eq hs.samplesGenerated_eq
    coreLog_head := by rw [hlog, hcfg, List.head?_append, hs.coreLog_head]; rfl }

end Effect

theorem step_keeps_inv {s t : State} (hs : s.Inv) (h : step s = .next t) : t.Inv := by
  rcases step_cases h with rfl | ⟨rest, i, he⟩
  · exact hs
  · exact he.keeps_inv { hs with }

/-- Settles O8: the next operation, whichever it is, keeps each range. -/
theorem stepKeepsTheInvariant : Obligations.StepKeepsTheInvariant :=
  fun _ _ => step_keeps_inv

/-! ### The prescaler phase -/

/-- The prescaler stands at a whole number of shell ticks of 80 microseconds. -/
def Timer.OnGrid (t : Timer) : Prop := ∃ n : ℤ, t.acc = 80 * n

/-- A shell tick and both rates are multiples of 80, so a prescaler stays on the grid. -/
theorem Timer.OnGrid.tick {c : Config} {i : TimerId} {t : Timer} (h : t.OnGrid) (ht : t.Inv c i) :
    (Timer.tick 80 t).OnGrid := by
  obtain ⟨n, hn⟩ := h
  have hacc := Timer.tick_acc (e := 80) ht.rate_pos (add_nonneg ht.acc_nonneg (by norm_num))
  generalize loopPasses (t.acc + 80) t.rate = p at hacc
  rw [Timer.OnGrid, hacc, hn, ht.rate_eq]
  cases i
  · exact ⟨n + 1 - p, by push_cast [Config.timerRate]; ring⟩
  · exact ⟨n + 1 - 4 * p, by push_cast [Config.timerRate]; ring⟩

theorem TimerEffect.keeps_onGrid {s : State} {i : Instr} {k : TimerId} {x : Timer} (h : TimerEffect s i k x)
    (htick : s.cfg.tickUs = 80) (hs : (s.timer k).Inv s.cfg k) (hg : (s.timer k).OnGrid) : x.OnGrid := by
  rcases h.acc_cases with ha | ⟨e, m, -, rfl⟩
  · exact hg.imp fun n hn => ha.trans hn
  · have hkeep : ∀ x : Timer, x.Inv s.cfg k ∧ x.OnGrid → (Timer.tick 80 x).Inv s.cfg k ∧ (Timer.tick 80 x).OnGrid :=
      fun x hx => ⟨hx.1.tick (by norm_num), hx.2.tick hx.1⟩
    rw [htick]
    exact (iterate_induction hkeep m ⟨hs, hg⟩).2

/-- In range, the phases of R19 are the grid points. -/
theorem State.phaseInv_iff_onGrid {s : State} (hs : s.Inv) (htick : s.cfg.tickUs = 80) :
    s.PhaseInv ↔ s.timer1.OnGrid ∧ s.timer2.OnGrid := by
  constructor
  · intro h
    obtain ⟨h₁, h₂⟩ := h htick
    refine ⟨⟨0, by simp [h₁]⟩, ?_⟩
    rcases h₂ with h₂ | h₂ | h₂ | h₂
    · exact ⟨0, by simp [h₂]⟩
    · exact ⟨1, by simp [h₂]⟩
    · exact ⟨2, by rw [h₂]; norm_num⟩
    · exact ⟨3, by rw [h₂]; norm_num⟩
  · rintro ⟨⟨n, hn⟩, ⟨m, hm⟩⟩ -
    obtain ⟨hr₁, hn0, hn1, -⟩ := hs.timer1
    obtain ⟨hr₂, hm0, hm1, -⟩ := hs.timer2
    rw [hr₁, hn, Config.timerRate] at hn1
    rw [hr₂, hm, Config.timerRate] at hm1
    rw [hn] at hn0 ⊢
    rw [hm] at hm0 ⊢
    norm_cast at hn0 hn1 hm0 hm1 ⊢
    omega

theorem Effect.keeps_phaseInv {s t : State} {i : Instr} (h : Effect s i t) (hs : s.Inv) (hp : s.PhaseInv) :
    t.PhaseInv := by
  intro htick
  have hs80 : s.cfg.tickUs = 80 := h.sameHostSide.1 ▸ htick
  obtain ⟨h₁, h₂⟩ := (State.phaseInv_iff_onGrid hs hs80).1 hp
  exact (State.phaseInv_iff_onGrid (h.keeps_inv hs) htick).2
    ⟨(h.timerEffect .one).keeps_onGrid hs80 hs.timer1 h₁, (h.timerEffect .two).keeps_onGrid hs80 hs.timer2 h₂⟩ htick

/-- Settles O9: both accumulators stay on the grid of 80 microseconds, and in their ranges the grid points are the phases. -/
theorem stepKeepsThePrescalerPhase : Obligations.StepKeepsThePrescalerPhase := by
  intro s t hs hp h
  rcases step_cases h with rfl | ⟨rest, i, he⟩
  · exact hp
  · exact he.keeps_phaseInv { hs with } hp

end Sys2Proof.Machine
end

section
/-! Programs of legal commands (R31, R183) and the single steps they are made of. -/

namespace Sys2Proof

/-- RUN's immediate is unsigned (R67). -/
theorem usecOfImm_nonneg (imm : BitVec 28) : 0 ≤ usecOfImm imm := by
  rw [usecOfImm_eq]
  positivity

/-- A word decodes to an operation in its domain only. -/
theorem inDomain_of_decode {w : Word} {i : Instr} (h : decode w = .ok i) : i.inDomain = true := by
  rcases decode_cases w with ⟨o, -, -, hd⟩ | ⟨o, -, -, hd⟩ | ⟨-, hd⟩ <;> rw [hd] at h <;> cases h
  cases o with
  | run => exact decide_eq_true (usecOfImm_nonneg _)
  | _ => rfl

namespace Machine

theorem Command.instr_of_legal {c : Command} (h : c.legal = true) : ∃ i, c.instr = .ok i ∧ i.inDomain = true := by
  cases c with
  | op i => exact ⟨i, rfl, h⟩
  | word w =>
    cases hd : decode w with
    | ok i => exact ⟨i, Command.instr_word hd, inDomain_of_decode hd⟩
    | error why => simp [Command.legal, decodeOption, hd] at h

/-- A step takes a legal command off the queue. -/
theorem step_of_legal {s : State} {c : Command} {rest : List Command} (h : s.pending = c :: rest)
    (hc : c.legal = true) : ∃ t, step s = .next t ∧ t.pending = rest := by
  obtain ⟨i, hi, hdom⟩ := Command.instr_of_legal hc
  obtain ⟨t, ht⟩ := exec_of_inDomain hdom { s with pending := rest }
  exact ⟨t, (step_of_instr_ok h hi).trans ht, (effect_of_exec ht).sameHostSide.2⟩

theorem run_succ_of_step {s s' : State} (h : step s = .next s') (n : Nat) : core.run (n + 1) s = core.run n s' := by
  have hcore : core.step s = .next s' := h
  simp only [Host.Core.run, hcore]

theorem run_of_legal (cs : List Command) (s : State) (h : s.pending = cs) (hcs : ∀ c ∈ cs, c.legal = true) :
    ∃ t, core.run cs.length s = .next t ∧ t.pending = [] := by
  induction cs generalizing s with
  | nil => exact ⟨s, rfl, h⟩
  | cons c rest ih =>
    obtain ⟨hc, hrest⟩ := List.forall_mem_cons.1 hcs
    obtain ⟨s', hs', hp⟩ := step_of_legal h hc
    obtain ⟨t, ht, hnil⟩ := ih s' hp hrest
    exact ⟨t, (run_succ_of_step hs' rest.length).trans ht, hnil⟩

/-- Settles O12, by induction on the pending commands. -/
theorem legalProgramsRunToTheirEnd : Obligations.LegalProgramsRunToTheirEnd :=
  fun s h => run_of_legal s.pending s rfl h

/-- Settles O5: the operation of the next command runs with the rest pending; an empty queue is idle. -/
theorem stepRunsTheDecodedOperation : Obligations.StepRunsTheDecodedOperation :=
  ⟨fun _ _ _ _ hp hd => step_of_instr_ok hp (Command.instr_word hd),
    fun _ _ _ hp => step_of_instr_ok hp rfl,
    fun _ hp => step_of_pending_nil hp⟩

end Machine
end Sys2Proof
end
section
/-! Which operations write which component (R10, R24), from what each operation does to it. -/

namespace Sys2Proof.Machine

/-- Settles O42, one clause for each component. -/
theorem onlyTheNamedOperationsWriteEachRegister : Obligations.OnlyTheNamedOperationsWriteEachRegister := by
  intro i s t h
  have he := effect_of_exec h
  refine ⟨fun f a => (he.shadowRead_cases f a).resolve_left, fun f => (he.latch_cases f).resolve_left,
    he.sampleRate_cases.resolve_left, fun hne => he.accumulators_cases.resolve_left ?_, he.sameHostSide⟩
  rintro ⟨hs, hu⟩
  exact hne.elim (· hs) (· hu)

/-- Settles O43, one clause for each field of the timer. -/
theorem onlyTheNamedOperationsWriteEachTimerAttribute : Obligations.OnlyTheNamedOperationsWriteEachTimerAttribute := by
  intro i s t k h
  have he := (effect_of_exec h).timerEffect k
  refine ⟨he.rate_eq, fun hne => he.flags_cases.resolve_left ?_, he.preset_cases.resolve_left,
    he.counter_cases.resolve_left, fun hne => ?_, fun hs ht => ?_, fun hs ht => ?_⟩
  · rintro ⟨hen, hm⟩
    exact hne.elim (· hen) (· hm)
  · obtain ⟨e, m, hi, -⟩ := he.acc_cases.resolve_left hne
    exact ⟨e, hi⟩
  · rcases he.elapsed_cases with hel | ⟨hi, hen, -⟩ | ⟨hel, -⟩
    · simp [hs, ht] at hel
    · exact ⟨hi, hen⟩
    · simp [ht] at hel
  · rcases he.elapsed_cases with hel | ⟨-, -, hmono⟩ | ⟨-, hi⟩
    · simp [hs, ht] at hel
    · simp [hmono hs] at ht
    · exact hi

/-- Settles O41: a register write counts one data write, by WDATA or WREG; a soft reset zeroes the record. -/
theorem statisticsCountTheEventsNamed : Obligations.StatisticsCountTheEventsNamed := by
  intro i s t h
  cases effect_of_exec h with
  | store b hi => obtain ⟨f, c, rfl, -⟩ | ⟨f, c, r, rfl, -⟩ := storeOf_eq_some hi <;> simp
  | reset hi => obtain ⟨rfl, -⟩ | rfl := hi <;> simp [Stats.zero]
  | _ => simp

end Sys2Proof.Machine
end
section
/-! WADDR (R120) and the status byte (R128): what each responds, and that nothing else moves. -/

namespace Sys2Proof.Machine

/-- Settles O18: WADDR is `setLatch` and one counted address write, which touch no other component. -/
theorem waddrSetsTheLatch : Obligations.WaddrSetsTheLatch := by
  intro s f a
  refine ⟨_, rfl, ?_, fun g hg => ?_, ?_, rfl, State.shadowRead_congr fun g => ?_, fun k => ?_, ⟨?_, ?_, ?_⟩, ?_, ?_, ?_⟩
  case refine_2 => simp [State.setLatch_latch_ne _ _ _ _ hg]
  all_goals simp

/-- The bits of the status byte (R32), and the four values they leave it. -/
theorem statusOf_bits (v₁ v₂ : Bool) :
    (statusOf v₁ v₂).getLsbD 6 = v₁ ∧ (statusOf v₁ v₂).getLsbD 5 = v₂ ∧
    (statusOf v₁ v₂).getLsbD 7 = ((statusOf v₁ v₂).getLsbD 6 || (statusOf v₁ v₂).getLsbD 5) ∧
    (statusOf v₁ v₂ = 0x00#8 ∨ statusOf v₁ v₂ = 0xC0#8 ∨ statusOf v₁ v₂ = 0xA0#8 ∨ statusOf v₁ v₂ = 0xE0#8) := by
  revert v₁ v₂
  decide

theorem exec_rstat (s : State) : exec .rstat s = .next (s.countStatusRead.respond (.byte s.statusByte)) := rfl

/-- Settles O26: the bits are those of `statusOf`, and counting the read does not touch them. -/
theorem rstatSynthesizesTheStatusByte : Obligations.RstatSynthesizesTheStatusByte := by
  intro s
  obtain ⟨h₆, h₅, h₇, hvalues⟩ := statusOf_bits s.timer1.isElapsed s.timer2.isElapsed
  exact ⟨_, s.statusByte, exec_rstat s, rfl, h₆, h₅, h₇, hvalues, rfl, State.shadowRead_congr fun f => by simp,
    _, exec_rstat _, rfl⟩

/-- Settles O27: the control write sets both masks and no `elapsed`. -/
theorem statusAfterControlWriteShowsThroughTheNewMask :
    Obligations.StatusAfterControlWriteShowsThroughTheNewMask := by
  intro s b v hv
  have h₁ : (s.writeRegister (directLoc .primary 0x04#8) v b).timer1 =
      { s.timer1 with masked := v.getLsbD 6, enabled := v.getLsbD 0 } := by
    rw [State.writeRegister_eq, directLoc, State.intercept_control s v hv]
  have h₂ : (s.writeRegister (directLoc .primary 0x04#8) v b).timer2 =
      { s.timer2 with masked := v.getLsbD 5, enabled := v.getLsbD 1 } := by
    rw [State.writeRegister_eq, directLoc, State.intercept_control s v hv]
  refine ⟨_, _, rfl, exec_rstat _, ?_, ?_, ?_⟩
  · simp [State.statusByte, Timer.isElapsed, h₁, h₂]
  · simp [h₁]
  · simp [h₂]

end Sys2Proof.Machine
end
section
/-! The shadow against the history of writes (R21, R22). -/

namespace Sys2Proof.Machine

/-- The 512 bytes of the shadow as one map. -/
def State.shadowMap (s : State) : Loc → Byte := fun loc => s.shadowRead loc.1 loc.2

theorem State.shadowMap_congr {s t : State} (h : ∀ f, t.shadow f = s.shadow f) : t.shadowMap = s.shadowMap :=
  funext fun loc => State.shadowRead_congr h loc.1 loc.2

theorem State.shadowMap_writeRegister (s : State) (loc : Loc) (v : Byte) (b : Bool) :
    (s.writeRegister loc v b).shadowMap = Function.update s.shadowMap loc v := by
  rw [State.shadowMap_congr (s.writeRegister_shadow loc v b)]
  funext x
  rw [Function.update_apply]
  exact s.shadowRead_shadowWrite loc.1 loc.2 v x.1 x.2

theorem State.shadowMap_of_cleared {s : State} (h : ∀ f, s.shadow f = Memory.cleared) : s.shadowMap = fun _ => 0 :=
  funext fun loc => by rw [State.shadowMap, State.shadowRead_eq, h, Memory.read_cleared]; rfl

theorem State.latch_setLatch (s : State) (f : RegFile) (a : Byte) :
    (s.setLatch f a).latch = Function.update s.latch f a := by
  funext g
  by_cases hg : g = f
  · subst hg
    rw [State.setLatch_latch_same, Function.update_self]
  · rw [State.setLatch_latch_ne _ _ _ _ hg, Function.update_of_ne hg]

/-- The history of the remaining operations, told from the state an operation leaves, is the history told from before it. -/
theorem Effect.lastWritten_cons {s t : State} {i : Instr} (h : Effect s i t) (is : List Instr) :
    lastWritten (i :: is) s.latch s.shadowMap = lastWritten is t.latch t.shadowMap := by
  cases h with
  | latch f a =>
    exact congrArg₂ (lastWritten is) (s.latch_setLatch f a).symm (State.shadowMap_congr fun g => by simp).symm
  | @store i loc v b hi =>
    have hl : ((s.writeRegister loc v b).respond .none).latch = s.latch := funext fun g => by simp
    have hm : ((s.writeRegister loc v b).respond .none).shadowMap = Function.update s.shadowMap loc v :=
      s.shadowMap_writeRegister loc v b
    rw [hl, hm]
    obtain ⟨f, c, rfl, rfl⟩ | ⟨f, c, r, rfl, rfl⟩ := storeOf_eq_some hi <;> rfl
  | @reset i hz hi =>
    have hl : ((({ s with sampleRate := hz } : State).softReset hz).respond .none).latch = s.latch :=
      funext fun g => State.softReset_latch ..
    have hm : ((({ s with sampleRate := hz } : State).softReset hz).respond .none).shadowMap = fun _ => 0 :=
      State.shadowMap_of_cleared fun g => by simp
    rw [hl, hm]
    obtain ⟨rfl, -⟩ | rfl := hi <;> rfl
  | advance he =>
    exact congrArg₂ (lastWritten is) (funext fun g => by simp) (State.shadowMap_congr fun g => by simp).symm
  | _ => rfl

/-- A run of operations leaves the shadow its own history describes. -/
theorem shadowMap_of_execAll (ops : List Instr) {s t : State} (h : execAll ops s = .next t) :
    t.shadowMap = lastWritten ops s.latch s.shadowMap := by
  induction ops generalizing s with
  | nil => cases h; rfl
  | cons i is ih =>
    cases hi : exec i s with
    | next u =>
      simp only [execAll, hi] at h
      rw [(effect_of_exec hi).lastWritten_cons, ih h]
    | fault r => simp [execAll, hi] at h
    | refused r => simp [execAll, hi] at h

/-- Settles O28: power-on has zero latches and a zero shadow, so the history is that of `shadowMap_of_execAll`. -/
theorem shadowHoldsTheLastValueWritten : Obligations.ShadowHoldsTheLastValueWritten := by
  intro c ops t h f a
  have hlatch : (State.powerOn c).latch = fun _ => 0 := funext fun g => by cases g <;> rfl
  have hmap : (State.powerOn c).shadowMap = fun _ => 0 := State.shadowMap_of_cleared fun g => by cases g <;> rfl
  have hread : t.shadowRead f a = lastWritten ops (fun _ => 0) (fun _ => 0) (f, a) := by
    have := congrFun (shadowMap_of_execAll ops h) (f, a)
    rwa [hlatch, hmap] at this
  exact ⟨hread, _, rfl, congrArg Response.byte hread⟩

end Sys2Proof.Machine
end
section
/-! What the status byte can depend on (R13, R32, R188): the parameters, the timers, `usec_acc` and the latches evolve from
themselves alone. -/

namespace Sys2Proof.Machine.SameTimeline

variable {s t : State} (h : SameTimeline s t)
include h

theorem statusByte : t.statusByte = s.statusByte :=
  congrArg₂ (fun x y : Timer => statusOf x.isElapsed y.isElapsed) (h.timers .one) (h.timers .two)

/-- A timer primitive reads its own timer only (R11). -/
theorem onTimer (i : TimerId) (g : Timer → Timer) : SameTimeline (s.onTimer i g) (t.onTimer i g) where
  cfg := by simpa using h.cfg
  timers k := by
    by_cases hk : k = i
    · subst hk
      simp [h.timers k]
    · simp [State.setTimer_timer_ne _ _ _ _ hk, h.timers k]
  usecAcc := by simpa using h.usecAcc
  latches f := by simpa using h.latches f

theorem setLatch (f : RegFile) (a : Byte) : SameTimeline (s.setLatch f a) (t.setLatch f a) where
  cfg := by simpa using h.cfg
  timers k := by simpa using h.timers k
  usecAcc := by simpa using h.usecAcc
  latches g := by rw [State.latch_setLatch, State.latch_setLatch, funext h.latches]

theorem shadowWrite (f : RegFile) (a v : Byte) : SameTimeline (s.shadowWrite f a v) (t.shadowWrite f a v) where
  cfg := by simpa using h.cfg
  timers k := by simpa using h.timers k
  usecAcc := by simpa [State.shadowWrite] using h.usecAcc
  latches g := by simpa [State.shadowWrite] using h.latches g

theorem controlWrite (v : Byte) : SameTimeline (s.controlWrite v) (t.controlWrite v) := by
  unfold State.controlWrite
  split
  · exact (h.onTimer .one _).onTimer .two _
  · exact (((h.onTimer .one _).onTimer .two _).onTimer .one _).onTimer .two _

theorem intercept (f : RegFile) (r v : Byte) : SameTimeline (s.intercept f r v) (t.intercept f r v) := by
  unfold State.intercept
  rw [h.cfg]
  split
  · exact h.onTimer .one _
  · exact h.onTimer .two _
  · exact h.controlWrite v
  · exact h

theorem writeRegister (loc : Loc) (v : Byte) (b : Bool) :
    SameTimeline (s.writeRegister loc v b) (t.writeRegister loc v b) :=
  { (h.shadowWrite loc.1 loc.2 v).intercept loc.1 loc.2 v with }

theorem shellTick : SameTimeline s.shellTick t.shellTick := by
  have hu : SameTimeline { s with usecAcc := s.usecAcc - s.cfg.tickUs } { t with usecAcc := t.usecAcc - t.cfg.tickUs } :=
    { h with usecAcc := by rw [h.usecAcc, h.cfg] }
  have := (hu.onTimer .one (Timer.tick s.cfg.tickUs)).onTimer .two (Timer.tick s.cfg.tickUs)
  unfold State.shellTick
  rw [h.cfg] at this ⊢
  exact this

theorem shellTicks (n : Nat) : SameTimeline (s.shellTicks n) (t.shellTicks n) := by
  induction n generalizing s t with
  | zero => exact h
  | succ n ih =>
    rw [State.shellTicks, State.shellTicks, h.cfg, h.usecAcc]
    split
    · exact ih h.shellTick
    · exact h

theorem advanceTimers (e : Rat) : SameTimeline (s.advanceTimers e) (t.advanceTimers e) := by
  have hu : SameTimeline { s with usecAcc := s.usecAcc + e } { t with usecAcc := t.usecAcc + e } :=
    { h with usecAcc := by rw [h.usecAcc] }
  have hn : loopPasses (t.usecAcc + e) t.cfg.tickUs = loopPasses (s.usecAcc + e) s.cfg.tickUs := by
    rw [h.usecAcc, h.cfg]
  unfold State.advanceTimers
  rw [hn]
  exact hu.shellTicks _

theorem softReset (r r' : Nat) : SameTimeline (s.softReset r) (t.softReset r') where
  cfg := by simpa using h.cfg
  timers k := by simp [h.cfg, h.timers k]
  usecAcc := by simpa using h.usecAcc
  latches f := by simpa using h.latches f

/-- An operation that completes from one of two states completes from the other, and they agree after it. -/
theorem exec_next {i : Instr} {s' : State} (hi : exec i s = .next s') : ∃ t', exec i t = .next t' ∧ SameTimeline s' t' := by
  cases i with
  | waddr f a => cases hi; exact ⟨_, rfl, { h.setLatch f a with }⟩
  | wdata f b v =>
    cases hi
    refine ⟨_, rfl, ?_⟩
    rw [latchedLoc, latchedLoc, h.latches f]
    exact { h.writeRegister (f, s.latch f) v b with }
  | wreg f b r v => cases hi; exact ⟨_, rfl, { h.writeRegister (directLoc f r) v b with }⟩
  | rreg f r => cases hi; exact ⟨_, rfl, { h with }⟩
  | rstat => cases hi; exact ⟨_, rfl, { h with }⟩
  | run e =>
    obtain ⟨he, rfl⟩ := (effect_of_exec hi).of_run
    exact ⟨_, if_neg (not_lt.2 he), { h.advanceTimers e with }⟩
  | reset => cases hi; exact ⟨_, rfl, { h.softReset s.sampleRate t.sampleRate with }⟩
  | resetr hz =>
    cases hi
    have hr : SameTimeline { s with sampleRate := hz } { t with sampleRate := hz } := { h with }
    exact ⟨_, rfl, { hr.softReset hz hz with }⟩
  | stats => cases hi; exact ⟨_, rfl, { h with }⟩

theorem execAll_next (ops : List Instr) {s' : State} (hs : execAll ops s = .next s') :
    ∃ t', execAll ops t = .next t' ∧ SameTimeline s' t' := by
  induction ops generalizing s t with
  | nil => cases hs; exact ⟨t, rfl, h⟩
  | cons i is ih =>
    cases hi : exec i s with
    | next u =>
      obtain ⟨u', hu', hsame⟩ := h.exec_next hi
      simp only [execAll, hi] at hs
      simp only [execAll, hu']
      exact ih hsame hs
    | fault r => simp [execAll, hi] at hs
    | refused r => simp [execAll, hi] at hs

end Sys2Proof.Machine.SameTimeline

namespace Sys2Proof.Machine

/-- Settles O44, by induction on the operations: each is a function of the timeline on the timeline. -/
theorem statusIgnoresEverythingButTheTimeline : Obligations.StatusIgnoresEverythingButTheTimeline := by
  intro ops s₁ s₂ t₁ h hs
  obtain ⟨t₂, ht, hsame⟩ := h.execAll_next ops hs
  exact ⟨t₂, ht, hsame, hsame.statusByte⟩

end Sys2Proof.Machine
end
section
/-! The events forwarded to the core: the index they carry (R43), the entry point they take (R53), and which operation appends
which (R52). -/

namespace Sys2Proof.Machine

/-! ### The core index -/

@[simp] theorem coreIndex_primary_toNat (r : Byte) : (coreIndex .primary r).toNat = r.toNat := by
  have h : coreIndex .primary r = 0#1 ++ r := rfl
  rw [h, BitVec.toNat_append]
  simp

@[simp] theorem coreIndex_secondary_toNat (r : Byte) : (coreIndex .secondary r).toNat = 0x100 + r.toNat := by
  have h : coreIndex .secondary r = 1#1 ++ r := rfl
  rw [h, BitVec.toNat_append, ← Nat.shiftLeft_add_eq_or_of_lt r.isLt]
  rfl

/-- The two files own the two halves of the index range, so the index gives both the file and the register back. -/
theorem coreIndex_inj {f g : RegFile} {r q : Byte} : coreIndex f r = coreIndex g q ↔ f = g ∧ r = q := by
  have hr := r.isLt
  have hq := q.isLt
  rw [← BitVec.toNat_inj, ← BitVec.toNat_inj (x := r)]
  cases f <;> cases g <;>
    simp only [coreIndex_primary_toNat, coreIndex_secondary_toNat, reduceCtorEq, true_and, false_and, iff_false] <;>
    omega

/-- Bit 8 of an index names the file, the eight bits below it the register. -/
theorem exists_coreIndex_eq (idx : CoreIdx) : ∃ f r, coreIndex f r = idx := by
  have hidx := idx.isLt
  by_cases hlow : idx.toNat < 0x100
  · refine ⟨.primary, idx.setWidth 8, BitVec.eq_of_toNat_eq ?_⟩
    rw [coreIndex_primary_toNat, BitVec.toNat_setWidth]
    omega
  · refine ⟨.secondary, idx.setWidth 8, BitVec.eq_of_toNat_eq ?_⟩
    rw [coreIndex_secondary_toNat, BitVec.toNat_setWidth]
    omega

/-- Settles O17: every index is that of some location, and of no other as the index is injective. -/
theorem coreIndexIsABijection : Obligations.CoreIndexIsABijection := by
  refine ⟨fun f r => ?_, fun idx => ?_⟩
  · cases f
    · rw [coreIndex_primary_toNat, Nat.zero_add]
    · exact coreIndex_secondary_toNat r
  · obtain ⟨f, r, rfl⟩ := exists_coreIndex_eq idx
    exact ⟨f, r, rfl, fun g q h => coreIndex_inj.1 h⟩

/-! ### The entry point -/

/-- Both flags leave the state of one register write but for the event, the last of the log. -/
theorem State.writeRegister_respond_flag (s : State) (loc : Loc) (v : Byte) :
    ∃ t : State,
      (s.writeRegister loc v false).respond .none =
        { t with coreLog := s.coreLog ++ [.coreWrite (coreIndex loc.1 loc.2) v] } ∧
      (s.writeRegister loc v true).respond .none =
        { t with coreLog := s.coreLog ++ [.coreWriteBuffered (coreIndex loc.1 loc.2) v] } := by
  refine ⟨(s.writeRegister loc v false).respond .none, ?_, ?_⟩
  · rw [State.writeRegister_eq]; rfl
  · rw [State.writeRegister_eq, State.writeRegister_eq]; rfl

/-- Settles O24: WREG and WDATA are the register write at their location, with no response. -/
theorem bufferedFlagOnlySelectsTheEntryPoint : Obligations.BufferedFlagOnlySelectsTheEntryPoint := by
  intro s f r v
  obtain ⟨t, ht, ht'⟩ := s.writeRegister_respond_flag (directLoc f r) v
  obtain ⟨u, hu, hu'⟩ := s.writeRegister_respond_flag (latchedLoc s f) v
  exact ⟨⟨t, congrArg _ ht, congrArg _ ht'⟩, u, congrArg _ hu, congrArg _ hu'⟩

/-! ### The log -/

/-- Settles O40: register writes and soft resets append the one event of their own, by the flag; nothing else appends. -/
theorem coreLogGainsExactlyTheEventsNamed : Obligations.CoreLogGainsExactlyTheEventsNamed := by
  intro i s t h
  cases i with
  | wdata f b v => cases h; cases b <;> simp [latchedLoc]
  | wreg f b r v => cases h; cases b <;> simp [directLoc]
  | run e =>
    obtain ⟨-, rfl⟩ := (effect_of_exec h).of_run
    simp
  | _ => cases h; simp

end Sys2Proof.Machine
end
section
/-! The command word and the operations (R61 to R74): the encoder against the decoder, the illegal words, RUN's immediate. -/

namespace Sys2Proof

open Laws.EncodesInRow (rowOf)

/-! ### The file bit and RUN's immediate, there and back -/

@[simp] theorem fileOfBit_bitOfFile (f : RegFile) : fileOfBit (bitOfFile f) = f := by cases f <;> rfl

@[simp] theorem bitOfFile_fileOfBit (b : Bool) : bitOfFile (fileOfBit b) = b := by cases b <;> rfl

/-- What it means for RUN's operand to fit `IMM28` (R67, R74). -/
theorem wf_run_iff (t : Rat) :
    (Instr.run t).wf = true ↔ (t * 256).den = 1 ∧ 0 ≤ t ∧ (t * 256).num < 2 ^ 28 := by
  simp [Instr.wf, and_assoc]

theorem wf_run_usecOfImm (imm : BitVec 28) : (Instr.run (usecOfImm imm)).wf = true := by
  have himm := imm.isLt
  rw [wf_run_iff, usecOfImm_mul, Rat.den_intCast, Rat.num_intCast]
  exact ⟨rfl, usecOfImm_nonneg imm, by omega⟩

/-- An operand that fits is the number its immediate stands for. -/
theorem usecOfImm_immOfUsec {t : Rat} (h : (Instr.run t).wf = true) : usecOfImm (immOfUsec t) = t := by
  obtain ⟨hden, ht, hnum⟩ := (wf_run_iff t).1 h
  have hnonneg : 0 ≤ (t * 256).num := Rat.num_nonneg.2 (by positivity)
  have himm : ((immOfUsec t).toNat : Int) = (t * 256).num := by
    rw [immOfUsec, BitVec.toNat_ofNat]
    omega
  have hmul : usecOfImm (immOfUsec t) * 256 = t * 256 := by
    rw [usecOfImm_mul, himm]
    exact Rat.coe_int_num_of_den_eq_one hden
  exact mul_right_cancel₀ (by norm_num) hmul

/-! ### Rows -/

theorem Opcode.code_injective : Function.Injective Opcode.code := fun a b h =>
  Option.some_injective _ (by rw [← opcodeOfCode_code a, h, opcodeOfCode_code])

/-- No word matches two rows of the opcode map (R65): a row a word matches is the one its opcode selects. -/
theorem matchesWord_unique {w : Word} {a b : Opcode} (ha : a.matchesWord w = true) (hb : b.matchesWord w = true) : a = b :=
  Opcode.code_injective (((matchesWord_iff a w).1 ha).1.symm.trans ((matchesWord_iff b w).1 hb).1)

theorem decode_eq_ok_iff {w : Word} {i : Instr} :
    decode w = .ok i ↔ ∃ o : Opcode, o.matchesWord w = true ∧ i = o.operation w := by
  constructor
  · intro h
    rcases decode_cases w with ⟨o, -, hm, hd⟩ | ⟨o, -, -, hd⟩ | ⟨-, hd⟩ <;> rw [hd] at h <;> cases h
    exact ⟨o, hm, rfl⟩
  · rintro ⟨o, hm, rfl⟩
    exact decode_of_matchesWord hm

/-! ### Encoding an operation -/

/-- An encoded operation matches its own row. -/
theorem matchesWord_encode (i : Instr) : (rowOf i).matchesWord (encode i) = true := by
  cases i with
  | waddr f a => exact Laws.EncodesInRow.waddr f a
  | wdata f b d => exact Laws.EncodesInRow.wdata f b d
  | wreg f b r v => exact Laws.EncodesInRow.wreg f b r v
  | rreg f r => exact Laws.EncodesInRow.rreg f r
  | rstat => exact Laws.EncodesInRow.rstat
  | run t => exact Laws.EncodesInRow.run t
  | reset => exact Laws.EncodesInRow.reset
  | resetr hz => exact Laws.EncodesInRow.resetr hz
  | stats => exact Laws.EncodesInRow.stats

/-- The operands of an encoded operation are read back, if they fit. -/
theorem operation_encode {i : Instr} (h : i.wf = true) : (rowOf i).operation (encode i) = i := by
  cases i with
  | run t => simp only [rowOf, encode, Opcode.operation, immField_formatI, usecOfImm_immOfUsec h]
  | resetr hz =>
    have hhz : hz < 2 ^ 28 := of_decide_eq_true h
    simp only [rowOf, encode, Opcode.operation, immField_formatI, BitVec.toNat_ofNat, Nat.mod_eq_of_lt hhz]
  | _ =>
    simp only [rowOf, encode, Opcode.operation, fField_formatR, bField_formatR, regField_formatR, dataField_formatR,
      fileOfBit_bitOfFile]

theorem decode_encode {i : Instr} (h : i.wf = true) : decode (encode i) = .ok i := by
  rw [decode_of_matchesWord (matchesWord_encode i), operation_encode h]

/-! ### Encoding a decoded word -/

/-- Operands taken from a word fit a word. -/
theorem operation_wf (o : Opcode) (w : Word) : (o.operation w).wf = true := by
  cases o with
  | run => exact wf_run_usecOfImm _
  | resetr => exact decide_eq_true (immField w).isLt
  | _ => rfl

/-- The operation read off a word that matches the row encodes to that word: what the row's fields do not carry is zero. -/
theorem encode_operation {o : Opcode} {w : Word} (h : o.matchesWord w = true) : encode (o.operation w) = w := by
  obtain ⟨hop, hzero⟩ := (matchesWord_iff o w).1 h
  have hI := formatI_fields w
  have hR := @formatR_fields w
  rw [hop] at hI hR
  cases o with
  | waddr | rreg =>
    obtain ⟨hz, hb, hd⟩ := hzero
    rw [hb, hd] at hR
    simpa [Opcode.operation, encode, Opcode.code] using hR hz
  | wdata =>
    obtain ⟨hz, hr⟩ := hzero
    rw [hr] at hR
    simpa [Opcode.operation, encode, Opcode.code] using hR hz
  | wreg => simpa [Opcode.operation, encode, Opcode.code] using hR hzero
  | rstat | reset | stats =>
    rw [hzero] at hI
    exact hI
  | run => simpa [Opcode.operation, encode, Opcode.code, immOfUsec_usecOfImm] using hI
  | resetr => simpa [Opcode.operation, encode, Opcode.code] using hI

theorem encode_of_decode {w : Word} {i : Instr} (h : decode w = .ok i) : i.wf = true ∧ encode i = w := by
  obtain ⟨o, hm, rfl⟩ := decode_eq_ok_iff.1 h
  exact ⟨operation_wf o w, encode_operation hm⟩

/-- Settles O3: both directions go through the one row of the opcode map a legal word matches. -/
theorem decodeAndEncodeAgree : Obligations.DecodeAndEncodeAgree :=
  ⟨fun _ => decode_encode, fun _ _ => encode_of_decode, fun _ _ => decode_eq_ok_iff, fun _ _ _ => matchesWord_unique⟩

/-! ### Illegal words -/

/-- The illegal words as R71 lists them, field by field. -/
def ListedIllegal (w : Word) : Prop :=
  opField w = 0x0#4 ∨ 0xA#4 ≤ opField w ∨
  ((opField w = 0x1#4 ∨ opField w = 0x4#4) ∧ (zField w ≠ 0 ∨ bField w = true ∨ dataField w ≠ 0)) ∨
  (opField w = 0x2#4 ∧ (zField w ≠ 0 ∨ regField w ≠ 0)) ∨
  (opField w = 0x3#4 ∧ zField w ≠ 0) ∨
  ((opField w = 0x5#4 ∨ opField w = 0x7#4 ∨ opField w = 0x9#4) ∧ immField w ≠ 0)

/-- Where the opcode selects a row, the list names the words that fail the row's mask test. -/
theorem listedIllegal_iff_of_code {o : Opcode} {w : Word} (hop : opField w = o.code) :
    ListedIllegal w ↔ o.matchesWord w = false := by
  rw [← Bool.not_eq_true, matchesWord_iff, ListedIllegal, hop]
  cases o <;> simp [Opcode.code, imp_iff_not_or]

theorem decode_error_iff (w : Word) : (∃ why, decode w = .error why) ↔ ListedIllegal w := by
  rcases decode_cases w with ⟨o, hop, hm, hd⟩ | ⟨o, hop, hm, hd⟩ | ⟨hop, hd⟩
  · simp [hd, listedIllegal_iff_of_code hop, hm]
  · exact iff_of_true ⟨_, hd⟩ ((listedIllegal_iff_of_code hop).2 hm)
  · exact iff_of_true ⟨_, hd⟩ (or_assoc.1 (.inl (opcodeOfCode_eq_none.1 hop)))

namespace Machine

theorem Command.instr_word_illegal {w : Word} {why : Illegal} (h : decode w = .error why) :
    (Command.word w).instr = .error (.illegalWord w why) := by
  simp only [Command.instr, h]

/-- Settles O2: the decoder errs where the list says, and a step passes its refusal on. -/
theorem illegalWordsAreExactlyThoseListed : Obligations.IllegalWordsAreExactlyThoseListed :=
  ⟨decode_error_iff, fun _ _ _ _ hp hd => step_of_instr_error hp (Command.instr_word_illegal hd)⟩

end Machine

/-! ### Words of the spec -/

/-- Settles O1: the decoder runs on each of the sixteen words; RUN's quotient is arithmetic. -/
theorem specWordsDecode : Obligations.SpecWordsDecode := by
  have hrun : decode 0x60001480#32 = .ok (.run (41 / 2)) := by
    rw [decode_of_matchesWord (o := .run) (by decide), Opcode.operation, usecOfImm_eq]
    norm_num [immField]
  exact ⟨rfl, rfl, rfl, rfl, rfl, hrun, rfl, rfl, rfl, rfl, rfl, rfl, rfl, rfl, rfl, rfl⟩

/-! ### RUN's immediate as a fixed-point number -/

/-- `IMM28` is the whole microseconds above their 256ths. -/
theorem immField_toNat (w : Word) :
    (immField w).toNat = (w.extractLsb' 8 20).toNat * 256 + (w.extractLsb' 0 8).toNat := by
  simp only [immField, BitVec.extractLsb'_toNat, Nat.shiftRight_eq_div_pow]
  omega

theorem usecOfImm_lt (imm : BitVec 28) : usecOfImm imm < 2 ^ 20 := by
  have himm : (imm.toNat : Rat) < 2 ^ 28 := by exact_mod_cast imm.isLt
  rw [usecOfImm_eq, div_lt_iff₀ (by norm_num)]
  linarith

/-- Settles O4: opcode 6 selects RUN's row, which has no must-be-zero bit. -/
theorem runImmediateIsFixedPoint : Obligations.RunImmediateIsFixedPoint := by
  intro w hop
  have hm : Opcode.run.matchesWord w = true := (matchesWord_iff .run w).2 ⟨hop, trivial⟩
  refine ⟨_, decode_of_matchesWord hm, ?_, usecOfImm_nonneg _, usecOfImm_lt _⟩
  rw [usecOfImm_eq, immField_toNat]
  push_cast
  ring

end Sys2Proof
end
section
/-! The two-step port write (R76, R120, R121) against the direct one (R123). -/

namespace Sys2Proof.Machine

/-- A register write neither reads nor writes the latches, the count of address writes and the response. -/
theorem State.writeRegister_setPort (s : State) (f : RegFile) (a : Byte) (r : Response) (loc : Loc) (v : Byte) (b : Bool) :
    ((s.setLatch f a).countAddrWrite.respond r).writeRegister loc v b =
      ((s.writeRegister loc v b).setLatch f a).countAddrWrite.respond r := by
  obtain ⟨g, q⟩ := loc
  -- the latch set is chosen by `f`, the byte stored by `g`, the timers touched by the class of the write
  simp only [State.writeRegister, State.intercept, State.controlWrite, State.onTimer_eq]
  cases f <;> cases g <;> (split <;> [skip; skip; split; skip]) <;> rfl

/-- Settles O30: after the address write the latched location is the direct one, so the data write is WREG's register write. -/
theorem portWriteIsWregWithTheLatchSet : Obligations.PortWriteIsWregWithTheLatchSet := by
  intro s f b a v
  have hloc : latchedLoc ((s.setLatch f a).countAddrWrite.respond .none) f = directLoc f a := by
    simp [latchedLoc, directLoc]
  have hexec : execAll (Pseudo.wport f b a v).expand s =
      .next ((((s.writeRegister (directLoc f a) v b).setLatch f a).countAddrWrite.respond .none).respond .none) := by
    rw [← State.writeRegister_setPort, ← hloc]
    rfl
  refine ⟨_, _, hexec, rfl, ?_, fun g hg => ?_, ?_⟩
  · simp
  · simp [State.setLatch_latch_ne _ _ _ _ hg]
  · cases f <;> rfl

end Sys2Proof.Machine
end

section
/-! Count steps (R92, R98): one step, any number of them in closed form, and how many of them overflow. -/

namespace Sys2Proof.Machine

/-- Settles O13: the three cases of `count`; from a counter that is not 255 adding 1 does not wrap. -/
theorem countStepsAndReloads : Obligations.CountStepsAndReloads := by
  intro t
  refine ⟨t.count_of_disabled, t.count_of_overflow, fun he hc => ?_⟩
  rw [t.count_of_step he hc]
  exact ⟨rfl, by bv_omega⟩

/-- How many of the first `k` count steps from `t` overflow: those that start from counter 255 (R92). -/
def Timer.overflows (t : Timer) (k : Nat) : Nat :=
  ((List.range k).filter fun j => (Timer.count^[j] t).counter = 255#8).length

/-- Overflows are counted along the run. -/
theorem Timer.overflows_add (t : Timer) (m n : Nat) :
    t.overflows (m + n) = t.overflows m + (Timer.count^[m] t).overflows n := by
  have hsplit (j : Nat) : Timer.count^[m + j] t = Timer.count^[j] (Timer.count^[m] t) := by
    rw [Nat.add_comm, Function.iterate_add_apply]
  simp only [Timer.overflows, List.range_add, List.filter_append, List.length_append, List.filter_map, List.length_map,
    Function.comp_def, hsplit]

theorem Timer.overflows_one (t : Timer) : t.overflows 1 = if t.counter = 255#8 then 1 else 0 := by
  by_cases h : t.counter = 255#8 <;> simp [Timer.overflows, h]

section
variable {t : Timer} (he : t.enabled = true)
include he

/-- Short of the first overflow every step adds 1. -/
theorem Timer.iterate_count_of_lt {n : Nat} (hn : n < 256 - t.counter.toNat) :
    Timer.count^[n] t = { t with counter := BitVec.ofNat 8 (t.counter.toNat + n) } := by
  induction n with
  | zero => simp
  | succ n ih =>
    have hc : BitVec.ofNat 8 (t.counter.toNat + n) ≠ 255#8 := by bv_omega
    rw [Function.iterate_succ_apply', ih (by omega), Timer.count_of_step _ (by exact he) (by exact hc)]
    simp only [BitVec.ofNat_add, BitVec.add_assoc]

theorem Timer.overflows_of_lt {n : Nat} (hn : n < 256 - t.counter.toNat) : t.overflows n = 0 := by
  refine List.length_eq_zero_iff.2 (List.filter_eq_nil_iff.2 fun j hj => ?_)
  have hj : j < n := List.mem_range.1 hj
  rw [Timer.iterate_count_of_lt he (hj.trans hn)]
  simp only [decide_eq_true_eq]
  bv_omega

/-- From counter `c` the step number 256 - c is the first that overflows (R98). -/
theorem Timer.iterate_count_first_overflow :
    Timer.count^[256 - t.counter.toNat] t = { t with elapsed := true, counter := t.preset } ∧
      t.overflows (256 - t.counter.toNat) = 1 := by
  have hn : 256 - t.counter.toNat = 255 - t.counter.toNat + 1 := by omega
  have hlt : 255 - t.counter.toNat < 256 - t.counter.toNat := by omega
  have hc : BitVec.ofNat 8 (t.counter.toNat + (255 - t.counter.toNat)) = 255#8 := by bv_omega
  constructor
  · rw [hn, Function.iterate_succ_apply', Timer.iterate_count_of_lt he hlt,
      Timer.count_of_overflow _ (by exact he) (by exact hc)]
  · rw [hn, Timer.overflows_add, Timer.overflows_of_lt he hlt, Timer.iterate_count_of_lt he hlt, Timer.overflows_one,
      if_pos hc]

end

/-- From the first overflow on, the run starts again at `preset`; so `n` further steps repeat with period 256 - preset. -/
theorem Timer.iterate_count_past_overflow {t : Timer} (he : t.enabled = true) (n : Nat) :
    Timer.count^[256 - t.counter.toNat + n] t =
        { t with
          counter := BitVec.ofNat 8 (t.preset.toNat + n % (256 - t.preset.toNat))
          elapsed := true } ∧
      t.overflows (256 - t.counter.toNat + n) = 1 + n / (256 - t.preset.toNat) := by
  induction n using Nat.strong_induction_on generalizing t with
  | _ n ih =>
    obtain ⟨hfirst, hone⟩ := Timer.iterate_count_first_overflow he
    rw [Timer.overflows_add, hone, Nat.add_comm _ n, Function.iterate_add_apply, hfirst]
    have he' : ({ t with elapsed := true, counter := t.preset } : Timer).enabled = true := he
    by_cases hn : n < 256 - t.preset.toNat
    · rw [Nat.mod_eq_of_lt hn, Nat.div_eq_of_lt hn, Timer.overflows_of_lt he' hn]
      exact ⟨Timer.iterate_count_of_lt he' hn, rfl⟩
    · obtain ⟨m, rfl⟩ := Nat.exists_eq_add_of_le (not_lt.1 hn)
      obtain ⟨hrun, hover⟩ := ih m (by omega) he'
      rw [Nat.add_mod_left, Nat.add_div_left _ (by omega), hover, Nat.add_comm 1 (_ / _)]
      exact ⟨hrun, rfl⟩

/-- Settles O15: up to the first overflow every step adds 1; after it the run repeats with period 256 - preset. -/
theorem countStepsClosedForm : Obligations.CountStepsClosedForm := by
  intro t k he
  refine ⟨fun hk => ⟨Timer.iterate_count_of_lt he hk, Timer.overflows_of_lt he hk⟩, fun hk => ?_⟩
  obtain ⟨n, rfl⟩ := Nat.exists_eq_add_of_le hk
  rw [Nat.add_sub_cancel_left]
  exact Timer.iterate_count_past_overflow he n

end Sys2Proof.Machine
end

section
/-! `tick` in closed form (R91). -/

namespace Sys2Proof.Machine

/-- `tick` is as many count steps as whole `rate`s fit into the prescaler, and leaves it the rest. -/
theorem Timer.tick_eq {t : Timer} {e : Rat} (hr : 0 < t.rate) (h : 0 ≤ t.acc + e) :
    Timer.tick e t = Timer.count^[loopPasses (t.acc + e) t.rate]
      { t with acc := t.acc + e - loopPasses (t.acc + e) t.rate * t.rate } :=
  Timer.drain_eq { t with acc := t.acc + e } _ (loopPasses_spec h (Nat.cast_pos.2 hr)).1

/-- With the prescaler in its range (R17) no time is no tick. -/
theorem Timer.tick_zero {t : Timer} (hr : 0 < t.rate) (h : 0 ≤ t.acc) (hlt : t.acc < t.rate) : Timer.tick 0 t = t := by
  have hnone : loopPasses (t.acc + 0) t.rate = 0 :=
    loopPasses_unique (Nat.cast_pos.2 hr) (by simpa using h) (by simpa using hlt)
  rw [Timer.tick, hnone, Timer.drain, add_zero]

/-- Settles O14: the count steps are the passes of `tick`'s loop, whose two bounds are the range of the new `acc`. -/
theorem tickPerformsTheCountStepsDue : Obligations.TickPerformsTheCountStepsDue := by
  intro t e hr hacc he
  have hnonneg : 0 ≤ t.acc + e := add_nonneg hacc he
  obtain ⟨hle, hlt⟩ := loopPasses_spec hnonneg (Nat.cast_pos.2 hr : (0 : Rat) < t.rate)
  refine ⟨⟨_, hle, hlt, Timer.tick_eq hr hnonneg⟩, ?_, ?_, Timer.tick_zero hr hacc⟩ <;>
    rw [Timer.tick_acc hr hnonneg] <;> linarith

end Sys2Proof.Machine
end

section
/-! The direct write of a timer's counter (R97, R125). -/

namespace Sys2Proof.Machine

theorem exec_wreg (s : State) (f : RegFile) (b : Bool) (r v : Byte) :
    exec (.wreg f b r v) s = .next ((s.writeRegister (directLoc f r) v b).respond .none) := rfl

/-- `set_counter` under both values of its switch (R97). -/
theorem Timer.setCounter_eq (loadsPreset : Bool) (v : Byte) (t : Timer) :
    Timer.setCounter loadsPreset v t = { t with counter := v, preset := if loadsPreset then v else t.preset } := by
  cases loadsPreset <;> rfl

/-- What WREG leaves in a timer is what the intercept leaves (R123 step 2). -/
theorem exec_wreg_timer (s : State) (f : RegFile) (b : Bool) (r v : Byte) :
    ∃ t, exec (.wreg f b r v) s = .next t ∧ ∀ i, t.timer i = (s.intercept f r v).timer i :=
  ⟨_, exec_wreg s f b r v, fun i => by rw [State.respond_timer, State.writeRegister_timer, directLoc]⟩

/-- Settles O21: the intercept of P:0x02 and P:0x03 is `set_counter` of the one timer. -/
theorem counterRegisterWriteSetsTheCounter : Obligations.CounterRegisterWriteSetsTheCounter := by
  intro s b v
  obtain ⟨t₁, h₁, ht₁⟩ := exec_wreg_timer s .primary b 0x02#8 v
  obtain ⟨t₂, h₂, ht₂⟩ := exec_wreg_timer s .primary b 0x03#8 v
  refine ⟨⟨t₁, h₁, ?_, ?_⟩, t₂, h₂, ?_, ?_⟩
  · rw [ht₁, State.intercept_timer1Counter, ← Timer.setCounter_eq]; rfl
  · rw [ht₁, State.intercept_timer1Counter]; rfl
  · rw [ht₂, State.intercept_timer2Counter, ← Timer.setCounter_eq]; rfl
  · rw [ht₂, State.intercept_timer2Counter]; rfl

end Sys2Proof.Machine
end

section
/-! The shadow (R110 to R113): its primitives, and how long a written byte reads back. -/

namespace Sys2Proof.Machine

theorem State.shadowWrite_frame (s : State) (f : RegFile) (a v : Byte) :
    s.shadowWrite f a v =
      { s with shadowP := (s.shadowWrite f a v).shadowP, shadowS := (s.shadowWrite f a v).shadowS } := by
  cases f <;> rfl

theorem State.shadowRead_shadowReset (s : State) (f : RegFile) (a : Byte) : s.shadowReset.shadowRead f a = 0 := by
  rw [State.shadowRead_eq, State.shadowReset_shadow, Memory.read_cleared]
  rfl

/-- Settles O16: the read-after-write law, the cleared files, and both writers field by field. -/
theorem shadowPrimitivesStoreReadAndClear : Obligations.ShadowPrimitivesStoreReadAndClear :=
  ⟨State.shadowRead_shadowWrite, State.shadowWrite_frame, State.shadowRead_shadowReset, fun _ => rfl⟩

/-- A run of operations completes exactly if its first operation and then the rest do. -/
theorem execAll_cons_eq_next {i : Instr} {is : List Instr} {s u : State} :
    execAll (i :: is) s = .next u ↔ ∃ t, exec i s = .next t ∧ execAll is t = .next u := by
  cases h : exec i s <;> simp [execAll, h]

/-- An operation that leaves a location alone keeps its byte: the only writers are a store there and a reset. -/
theorem shadowRead_of_leavesAlone_cons {f : RegFile} {a : Byte} {i : Instr} {is : List Instr} {s t : State}
    (hi : exec i s = .next t) (h : LeavesAlone (f, a) (i :: is) s) : t.shadowRead f a = s.shadowRead f a := by
  obtain ⟨hhead, -⟩ := h
  obtain hsame | ⟨v, hstore, -⟩ | ⟨rfl | ⟨hz, rfl⟩, -⟩ := (effect_of_exec hi).shadowRead_cases f a
  · exact hsame
  · obtain ⟨g, b, rfl, hloc⟩ | ⟨g, b, r, rfl, hloc⟩ := storeOf_eq_some hstore <;> exact absurd hloc.symm hhead
  · exact hhead.elim
  · exact hhead.elim

theorem shadowRead_of_leavesAlone {f : RegFile} {a : Byte} (ops : List Instr) {s t : State}
    (h : LeavesAlone (f, a) ops s) (hrun : execAll ops s = .next t) : t.shadowRead f a = s.shadowRead f a := by
  induction ops generalizing s with
  | nil => cases hrun; rfl
  | cons i is ih =>
    obtain ⟨u, hi, hrest⟩ := execAll_cons_eq_next.1 hrun
    rw [ih (h.2 u hi) hrest, shadowRead_of_leavesAlone_cons hi h]

theorem State.shadowRead_writeRegister_same (s : State) (f : RegFile) (r v : Byte) (b : Bool) :
    (s.writeRegister (f, r) v b).shadowRead f r = v := by
  rw [State.shadowRead_congr (s.writeRegister_shadow (f, r) v b), State.shadowRead_shadowWrite, if_pos rfl]

/-- Settles O29: WREG stores the byte, operations that leave the location alone keep it, and RREG answers it. -/
theorem writtenByteReadsBackUntilOverwritten : Obligations.WrittenByteReadsBackUntilOverwritten := by
  intro s f b r v ops t u hwrite halone hrun
  have hstored : t.shadowRead f r = v := by
    cases hwrite
    exact s.shadowRead_writeRegister_same f r v b
  have hkept : u.shadowRead f r = v := (shadowRead_of_leavesAlone ops halone hrun).trans hstored
  exact ⟨_, rfl, congrArg Response.byte hkept⟩

end Sys2Proof.Machine
end

section
/-! The register ports (R121 to R127): what a register write leaves but for the timers, WDATA against WREG, the classes of a
write and their effect on the timers, RREG. -/

namespace Sys2Proof.Machine

/-! ### One register write (R123) -/

/-- Steps 1, 3 and 4 of a register write, and that it responds nothing: the intercept touches timers only. -/
theorem State.registerWritten_writeRegister (s : State) (loc : Loc) (v : Byte) (b : Bool) :
    RegisterWritten s ((s.writeRegister loc v b).respond .none) loc v b where
  stored := s.shadowRead_writeRegister_same loc.1 loc.2 v b
  shadow f a hne := by
    have hread : (s.writeRegister loc v b).shadowRead f a = (s.shadowWrite loc.1 loc.2 v).shadowRead f a :=
      State.shadowRead_congr (s.writeRegister_shadow loc v b) f a
    exact hread.trans ((s.shadowRead_shadowWrite ..).trans (if_neg hne))
  stats := s.writeRegister_stats loc v b
  log := s.writeRegister_coreLog loc v b
  latches f := by simp
  clock := by simp [SameClock]
  host := by simp [SameHostSide]
  response := rfl

/-- Settles O19: WREG is the register write at its direct location, whose event carries the index of R43. -/
theorem wregStoresCountsAndForwards : Obligations.WregStoresCountsAndForwards := by
  intro s f b r v
  refine ⟨_, exec_wreg s f b r v, ?_, coreIndexIsABijection.1 f r⟩
  rintro loc rfl
  exact s.registerWritten_writeRegister (directLoc f r) v b

/-! ### WDATA (R121) -/

theorem exec_wdata (s : State) (f : RegFile) (b : Bool) (v : Byte) :
    exec (.wdata f b v) s = .next ((s.writeRegister (latchedLoc s f) v b).respond .none) := rfl

/-- WDATA is WREG at the latch of its file: latched addressing only names the register (R129). -/
theorem exec_wdata_eq_exec_wreg (s : State) (f : RegFile) (b : Bool) (v : Byte) :
    exec (.wdata f b v) s = exec (.wreg f b (s.latch f) v) s := rfl

/-- Settles O20: a register write keeps the latches, so a second WDATA finds the same latch. -/
theorem wdataIsWregAtTheLatch : Obligations.WdataIsWregAtTheLatch := by
  intro s f b v
  have hwritten := s.registerWritten_writeRegister (latchedLoc s f) v b
  refine ⟨_, exec_wdata s f b v, exec_wdata_eq_exec_wreg s f b v, ?_, fun w => ⟨_, exec_wdata _ f b w, ?_⟩⟩
  · rintro loc rfl
    exact hwritten
  · rw [← hwritten.latches f, ← exec_wdata_eq_exec_wreg, exec_wdata]

/-! ### The classes of a register write (R124) and the timers -/

/-- Settles O22: the intercept of P:0x04 is the acknowledge or the control write, by bit 7. -/
theorem controlWriteAcknowledgesOrSetsFlags : Obligations.ControlWriteAcknowledgesOrSetsFlags := by
  intro s b v
  obtain ⟨t, ht, htimer⟩ := exec_wreg_timer s .primary b 0x04#8 v
  refine ⟨t, ht, fun hack => ?_, fun hctrl => ?_⟩
  · rw [htimer, htimer, s.intercept_ack v hack]
    exact ⟨rfl, rfl⟩
  · rw [htimer, htimer, s.intercept_control v hctrl]
    exact ⟨rfl, rfl⟩

theorem classify_primary (r : Byte) :
    classify .primary r =
      if r = 0x02#8 then .timer1Counter else if r = 0x03#8 then .timer2Counter
      else if r = 0x04#8 then .timerControl else .other := rfl

theorem classify_secondary (r : Byte) : classify .secondary r = .other := rfl

/-- Settles O23: the classes by file and register, and the intercept is the identity on the class Other. -/
theorem otherRegisterWritesLeaveTheTimers : Obligations.OtherRegisterWritesLeaveTheTimers := by
  refine ⟨fun f r => ?_, fun s f b r v hother => ?_⟩
  · cases f with
    | secondary => simp [classify_secondary]
    | primary =>
      rw [classify_primary]
      by_cases h₂ : r = 0x02#8
      · subst h₂; decide
      by_cases h₃ : r = 0x03#8
      · subst h₃; decide
      by_cases h₄ : r = 0x04#8
      · subst h₄; decide
      simp [h₂, h₃, h₄]
  · obtain ⟨t, ht, htimer⟩ := exec_wreg_timer s f b r v
    exact ⟨t, ht, fun i => by rw [htimer, s.intercept_other f r v hother]⟩

/-! ### RREG (R122) -/

theorem exec_rreg (s : State) (f : RegFile) (r : Byte) :
    exec (.rreg f r) s = .next (s.respond (.byte (s.shadowRead f r))) := rfl

/-- Settles O25: RREG only responds, and the response port is no part of the shadow. -/
theorem rregReadsTheShadow : Obligations.RregReadsTheShadow := by
  intro s f r
  exact ⟨_, exec_rreg s f r, rfl, rfl, State.shadowRead_congr (s.respond_shadow _)⟩

end Sys2Proof.Machine
end

section
/-! Outside its domain an operation is refused (R140, R162), and a list of operations in their domains runs to its end (R31). -/

namespace Sys2Proof

/-- Only RUN has operands outside its domain (D13). -/
theorem inDomain_eq_false_iff {i : Instr} : i.inDomain = false ↔ ∃ t : Rat, t < 0 ∧ i = .run t := by
  cases i <;> simp [Instr.inDomain]

end Sys2Proof

namespace Sys2Proof.Machine

theorem exec_run_of_neg {e : Rat} (he : e < 0) (s : State) : exec (.run e) s = .refused (.negativeElapsed e) := if_pos he

theorem exec_run_of_nonneg {e : Rat} (he : 0 ≤ e) (s : State) :
    exec (.run e) s = .next ((s.advanceTimers e).sampleCount e) := if_neg (not_lt.2 he)

theorem execAll_of_inDomain (is : List Instr) (his : ∀ i ∈ is, i.inDomain = true) (s : State) :
    ∃ u, execAll is s = .next u := by
  induction is generalizing s with
  | nil => exact ⟨s, rfl⟩
  | cons i is ih =>
    obtain ⟨hi, hrest⟩ := List.forall_mem_cons.1 his
    obtain ⟨t, ht⟩ := exec_of_inDomain hi s
    obtain ⟨u, hu⟩ := ih hrest t
    exact ⟨u, execAll_cons_eq_next.2 ⟨t, ht, hu⟩⟩

/-- Settles O11: an operation in its domain completes, and one outside is RUN of a negative operand. -/
theorem onlyANegativeRunIsRefused : Obligations.OnlyANegativeRunIsRefused := by
  intro i s r
  constructor
  · intro h
    cases hi : i.inDomain
    · obtain ⟨t, ht, rfl⟩ := inDomain_eq_false_iff.1 hi
      rw [exec_run_of_neg ht] at h
      exact ⟨t, ht, rfl, (Host.Outcome.refused.inj h).symm⟩
    · obtain ⟨u, hu⟩ := exec_of_inDomain hi s
      rw [hu] at h
      cases h
  · rintro ⟨t, ht, rfl, rfl⟩
    exact exec_run_of_neg ht s

end Sys2Proof.Machine
end

section
/-! RUN (R140 to R142, R147): its frame, the shell ticks and the frames it accounts for, and that splitting its operand changes
neither. -/

namespace Sys2Proof.Machine

/-! ### The frame -/

theorem Timer.OnlyTicked.eq {t x : Timer} (h : t.OnlyTicked x) :
    x = { t with acc := x.acc, counter := x.counter, elapsed := x.elapsed } := by
  rw [← h.enabled, ← h.masked, ← h.rate, ← h.preset]

theorem State.onlyTicked_advanceTimers (s : State) (e : Rat) (k : TimerId) :
    (s.timer k).OnlyTicked ((s.advanceTimers e).timer k) := by
  obtain ⟨m, hm⟩ := s.advanceTimers_timer e
  rw [hm]
  exact Timer.onlyTicked_iterate_tick ..

/-- Settles O31: the sample part touches no timer, and the timer part only ticks them. -/
theorem runCompletesAndItsFrame : Obligations.RunCompletesAndItsFrame := by
  refine ⟨fun s t ht => ⟨_, exec_run_of_nonneg ht s, ?_⟩, fun s t ht => exec_run_of_neg ht s⟩
  refine ⟨State.shadowRead_congr fun f => ?_, fun f => ?_, ?_, ?_, ?_, ⟨?_, ?_⟩, fun i => ?_⟩
  case refine_8 =>
    have hticked := s.onlyTicked_advanceTimers t i
    rw [State.sampleCount_timer]
    exact ⟨hticked.eq, hticked.elapsed_mono, hticked.of_disabled⟩
  all_goals simp

/-! ### The timer part (R141) -/

/-- `advance_timers` field by field: the shell ticks due, and the rest of the microseconds carried. -/
theorem State.advanceTimers_eq {s : State} {e : Rat} (hv : s.cfg.valid) (h : 0 ≤ s.usecAcc + e) :
    s.advanceTimers e =
      { s with
        timer1 := (Timer.tick s.cfg.tickUs)^[loopPasses (s.usecAcc + e) s.cfg.tickUs] s.timer1
        timer2 := (Timer.tick s.cfg.tickUs)^[loopPasses (s.usecAcc + e) s.cfg.tickUs] s.timer2
        usecAcc := s.usecAcc + e - loopPasses (s.usecAcc + e) s.cfg.tickUs * s.cfg.tickUs } :=
  State.shellTicks_eq { s with usecAcc := s.usecAcc + e } _ hv (loopPasses_spec h hv).1

/-- Settles O32: the shell ticks are the passes of RUN's loop, whose two bounds are the range of `usec_acc`. -/
theorem runPerformsTheShellTicksDue : Obligations.RunPerformsTheShellTicksDue := by
  intro s t hs ht
  have h0 : 0 ≤ s.usecAcc + t := add_nonneg hs.usecAcc_nonneg ht
  have hrun := exec_run_of_nonneg ht s
  obtain ⟨hle, hlt⟩ := loopPasses_spec h0 hs.cfg_valid
  obtain ⟨hnonneg, hrange⟩ :=
    (effect_of_exec hrun).keeps_usecAcc_range hs.cfg_valid ⟨hs.usecAcc_nonneg, hs.usecAcc_lt⟩
  refine ⟨_, _, hrun, hle, hlt, State.advanceTimers_usecAcc hs.cfg_valid h0, hnonneg, hrange, fun i => ?_⟩
  rw [State.sampleCount_timer, State.advanceTimers_eq hs.cfg_valid h0]
  cases i <;> rfl

/-- Passes already taken and the passes due from what they left are the passes due at once. -/
theorem loopPasses_sub_add {x y step : Rat} {m : Nat} (hs : 0 < step) (hx : (m : Rat) * step ≤ x) (hy : 0 ≤ y) :
    loopPasses (x - m * step + y) step + m = loopPasses (x + y) step := by
  obtain ⟨hle, hlt⟩ := loopPasses_spec (add_nonneg (sub_nonneg.2 hx) hy) hs
  refine (loopPasses_unique hs ?_ ?_).symm <;> push_cast <;> linarith

theorem State.advanceTimers_add {s : State} {a b : Rat} (hv : s.cfg.valid) (hs : 0 ≤ s.usecAcc) (ha : 0 ≤ a) (hb : 0 ≤ b) :
    (s.advanceTimers a).advanceTimers b = s.advanceTimers (a + b) := by
  have h0 : 0 ≤ s.usecAcc + a := add_nonneg hs ha
  obtain ⟨hle, -⟩ := loopPasses_spec h0 hv
  have hpasses := loopPasses_sub_add hv hle hb
  have h1 : 0 ≤ (s.advanceTimers a).usecAcc + b := by rw [State.advanceTimers_usecAcc hv h0]; linarith
  rw [State.advanceTimers_eq (by simpa using hv) h1, State.advanceTimers_eq hv h0,
    State.advanceTimers_eq hv (by linarith), ← add_assoc, ← hpasses]
  simp only [Function.iterate_add_apply, State.mk.injEq, true_and, and_true]
  push_cast
  ring

/-- The sample part and the timer part of RUN touch different components. -/
theorem State.sampleCount_advanceTimers {s : State} {a b : Rat} (hv : s.cfg.valid) (h : 0 ≤ s.usecAcc + b) :
    (s.sampleCount a).advanceTimers b = (s.advanceTimers b).sampleCount a := by
  rw [State.advanceTimers_eq (s := s.sampleCount a) hv h, State.advanceTimers_eq hv h]
  rfl

/-! ### The sample part (R142) -/

theorem State.framesDue_eq (s : State) (e : Rat) : s.framesDue e = s.sampleAcc + e * s.sampleRate / 1000000 := rfl

/-- Settles O33: the response is the floor of the frames due, and `sample_acc` the rest. -/
theorem runReportsTheFramesDue : Obligations.RunReportsTheFramesDue := by
  intro s t hs ht
  simp only [← State.framesDue_eq]
  refine ⟨_, _, exec_run_of_nonneg ht s, rfl, ?_, ?_, ?_⟩ <;> rw [State.advanceTimers_framesDue]
  · exact Nat.floor_le (State.framesDue_nonneg hs.sampleAcc_nonneg ht)
  · exact Nat.lt_floor_add_one _
  · rw [State.sampleCount_sampleAcc, State.advanceTimers_framesDue]

/-- After a first RUN the frames due are those due for both operands, less the frames it has reported. -/
theorem State.framesDue_sampleCount (s : State) (a b : Rat) :
    (s.sampleCount a).framesDue b = s.framesDue (a + b) - ⌊s.framesDue a⌋₊ := by
  simp only [State.framesDue_eq (s.sampleCount a), State.sampleCount_sampleAcc, State.sampleCount_sampleRate,
    State.framesDue_eq s]
  ring

theorem State.framesDue_mono (s : State) {a b : Rat} (h : a ≤ b) : s.framesDue a ≤ s.framesDue b := by
  rw [State.framesDue_eq, State.framesDue_eq]
  gcongr

/-- The frames of two RUNs in a row sum to those of one RUN of both operands (D12). -/
theorem State.floor_framesDue_add (s : State) (a : Rat) {b : Rat} (hb : 0 ≤ b) :
    ⌊s.framesDue a⌋₊ + ⌊(s.sampleCount a).framesDue b⌋₊ = ⌊s.framesDue (a + b)⌋₊ := by
  have hle : ⌊s.framesDue a⌋₊ ≤ ⌊s.framesDue (a + b)⌋₊ := Nat.floor_mono (s.framesDue_mono (le_add_of_nonneg_right hb))
  rw [State.framesDue_sampleCount, Nat.floor_sub_natCast, Nat.add_sub_cancel' hle]

theorem State.sampleCount_add (s : State) (a : Rat) {b : Rat} (hb : 0 ≤ b) :
    s.sampleCount (a + b) =
      { (s.sampleCount a).sampleCount b with
        response := .count (⌊s.framesDue a⌋₊ + ⌊(s.sampleCount a).framesDue b⌋₊) } := by
  have hacc : s.framesDue (a + b) - ⌊s.framesDue (a + b)⌋₊ =
      (s.sampleCount a).framesDue b - ⌊(s.sampleCount a).framesDue b⌋₊ := by
    rw [← State.floor_framesDue_add s a hb, State.framesDue_sampleCount]
    push_cast
    ring
  rw [State.floor_framesDue_add s a hb]
  simp only [State.sampleCount] at hacc ⊢
  rw [hacc]

/-! ### Several RUNs -/

@[simp] theorem State.sampleCount_frames (s : State) (e : Rat) :
    (s.sampleCount e).response.frames = ⌊s.framesDue e⌋₊ := rfl

/-- Settles O34: the timer parts and the sample parts are additive, and they commute. -/
theorem runIsAdditive : Obligations.RunIsAdditive := by
  intro s a b hs ha hb
  have hv : (s.advanceTimers a).cfg.valid := by simpa using hs.cfg_valid
  have hu : 0 ≤ (s.advanceTimers a).usecAcc :=
    ((effect_of_exec (exec_run_of_nonneg ha s)).keeps_inv hs).usecAcc_nonneg
  have hrun : exec (.run b) ((s.advanceTimers a).sampleCount a) =
      .next (((s.advanceTimers (a + b)).sampleCount a).sampleCount b) := by
    rw [exec_run_of_nonneg hb, State.sampleCount_advanceTimers hv (add_nonneg hu hb),
      State.advanceTimers_add hs.cfg_valid hs.usecAcc_nonneg ha hb]
  refine ⟨_, _, _, _, exec_run_of_nonneg ha s, hrun, rfl, rfl, ?_⟩
  rw [exec_run_of_nonneg (add_nonneg ha hb), State.sampleCount_add _ a hb]
  simp only [State.advanceTimers_framesDue]

/-- The frames a list of RUNs reports (R142, corner case 3). -/
theorem frames_of_runs (ts : List Rat) (hts : ∀ t ∈ ts, 0 ≤ t) {s : State} (hs : 0 ≤ s.sampleAcc ∧ s.sampleAcc < 1) :
    ((responses (ts.map Instr.run) s).map Response.frames).sum = ⌊s.framesDue ts.sum⌋₊ := by
  induction ts generalizing s with
  | nil => simp [responses, State.framesDue, Nat.floor_eq_zero.2 hs.2]
  | cons t ts ih =>
    obtain ⟨ht, hrest⟩ := List.forall_mem_cons.1 hts
    have hrun := exec_run_of_nonneg ht s
    have hkeeps := (effect_of_exec hrun).keeps_sampleAcc_range hs
    simp only [List.map_cons, responses, hrun, List.sum_cons, ih hrest hkeeps]
    simpa using State.floor_framesDue_add (s.advanceTimers t) t (List.sum_nonneg hrest)

/-- Settles O35: the sum is the floor of the frames due, and one second is due the sample rate. -/
theorem sampleCountsDoNotDrift : Obligations.SampleCountsDoNotDrift := by
  intro s ts hs hts
  have hframes := frames_of_runs ts hts ⟨hs.sampleAcc_nonneg, hs.sampleAcc_lt⟩
  have hsum : 0 ≤ s.framesDue ts.sum := State.framesDue_nonneg hs.sampleAcc_nonneg (List.sum_nonneg hts)
  have hdomain : ∀ i ∈ ts.map Instr.run, i.inDomain = true :=
    List.forall_mem_map.2 fun t ht => decide_eq_true (p := 0 ≤ t) (hts t ht)
  refine ⟨execAll_of_inDomain _ hdomain s, ?_, fun hsecond => ?_⟩
  · rw [hframes, Int.natCast_floor_eq_floor hsum]
    rfl
  · rw [hframes, hsecond, Nat.floor_eq_iff (hsecond ▸ hsum), State.framesDue_eq,
      mul_div_cancel_left₀ _ (by norm_num)]
    exact ⟨le_add_of_nonneg_left hs.sampleAcc_nonneg, by linarith [hs.sampleAcc_lt]⟩

end Sys2Proof.Machine
end

section
/-! RESET, RESETR and STATS (R143 to R145). -/

namespace Sys2Proof.Machine

/-- RESET and RESETR are one soft reset at the rate then held. -/
theorem exec_softReset {s : State} {i : Instr} {rate : Nat} (hi : i = .reset ∧ rate = s.sampleRate ∨ i = .resetr rate) :
    exec i s = .next ((({ s with sampleRate := rate } : State).softReset rate).respond .none) := by
  obtain ⟨rfl, rfl⟩ | rfl := hi <;> rfl

/-- Settles O37: what the soft reset does to each component. -/
theorem softResetClearsShadowAndStatistics : Obligations.SoftResetClearsShadowAndStatistics := by
  intro s i rate hi
  refine ⟨_, exec_softReset hi, fun f a => ?_, ?_, ?_, ?_, rfl, fun f => ?_, ?_, ?_, ⟨?_, ?_⟩, fun k => ?_⟩
  case refine_1 =>
    rw [State.shadowRead_eq, State.respond_shadow, State.softReset_shadow, Memory.read_cleared]
    rfl
  case refine_5 =>
    rw [State.respond_latch, State.softReset_latch]
    cases f <;> rfl
  case refine_10 =>
    rw [State.respond_timer, State.softReset_timer]
    cases k <;> rfl
  all_goals simp [Stats.zero]

theorem exec_stats (s : State) :
    exec .stats s = .next (s.respond
      (.stats s.stats.dataWrites s.stats.addrWrites s.stats.statusReads s.stats.samplesGenerated)) := rfl

/-- Settles O39: STATS only responds. -/
theorem statsReadsTheRecord : Obligations.StatsReadsTheRecord := by
  intro s
  exact ⟨_, exec_stats s, rfl, rfl, State.shadowRead_congr (s.respond_shadow _)⟩

end Sys2Proof.Machine
end

section
/-! Every operation is total and raises nothing (R160). -/

namespace Sys2Proof.Machine

/-- Settles O10: an operation in its domain completes by `exec_of_inDomain`; a fault would be a value of `Fault`, which has no
constructor (R162). -/
theorem everyOperationCompletes : Obligations.EveryOperationCompletes :=
  ⟨fun _ s hi => exec_of_inDomain hi s, fun _ _ r => nomatch r⟩

end Sys2Proof.Machine
end

section
/-! Power-on (R181) and what the host then reads, and a second soft reset in a row (R182). -/

namespace Sys2Proof.Machine

/-! ### Power-on -/

theorem State.powerOn_timer (c : Config) (i : TimerId) : (State.powerOn c).timer i = Timer.powerOn c i := by
  cases i <;> rfl

theorem State.powerOn_latch (c : Config) (f : RegFile) : (State.powerOn c).latch f = 0 := by
  cases f <;> rfl

theorem State.powerOn_shadow (c : Config) (f : RegFile) : (State.powerOn c).shadow f = Memory.cleared := by
  cases f <;> rfl

theorem State.powerOn_shadowRead (c : Config) (f : RegFile) (a : Byte) : (State.powerOn c).shadowRead f a = 0 := by
  rw [State.shadowRead_eq, State.powerOn_shadow, Memory.read_cleared]
  rfl

theorem State.powerOn_statusByte (c : Config) : (State.powerOn c).statusByte = 0x00#8 := by
  simp [State.statusByte, Timer.isElapsed, statusOf, State.powerOn, Timer.powerOn]

/-- Settles O6: the components as built; RSTAT, RREG and STATS read the status byte, the shadow and the statistics of that
state. -/
theorem powerOnLeaves : Obligations.PowerOnLeaves := by
  intro c
  refine ⟨fun i => ?_, fun f a => ⟨State.powerOn_shadowRead c f a, State.powerOn_latch c f⟩,
    rfl, rfl, rfl, rfl, rfl, rfl, rfl, rfl, ⟨_, exec_rstat _, ?_⟩, fun f a => ⟨_, exec_rreg _ f a, ?_⟩, _, exec_stats _, rfl⟩
  · rw [State.powerOn_timer]
    cases i <;> rfl
  · rw [State.respond_response, State.powerOn_statusByte]
  · rw [State.respond_response, State.powerOn_shadowRead]
    rfl

/-! ### Two soft resets in a row -/

/-- A soft reset of what a soft reset left changes the rate and the log only: the shadow and the statistics are already
clear, the response is already none, and the timers, where the switch asks for it, are already cleared. -/
theorem exec_softReset_of_softReset {s t : State} {i : Instr} {rate hz : Nat} (ht : t = (s.softReset rate).respond .none)
    (hi : i = .reset ∧ hz = t.sampleRate ∨ i = .resetr hz) :
    exec i t = .next { t with sampleRate := hz, coreLog := t.coreLog ++ [.coreReset hz] } := by
  rw [exec_softReset hi, State.softReset_eq, ht, State.softReset_eq]
  by_cases hc : s.cfg.softResetClearsTimers = true <;> simp [State.respond, hc]

/-- Settles O38: each second reset is one at the rate it then holds, and RESET's is the rate the first one used. -/
theorem secondSoftResetOnlyLogs : Obligations.SecondSoftResetOnlyLogs := by
  intro s i rate hi
  obtain ⟨t, ht⟩ : ∃ t, t = (({ s with sampleRate := rate } : State).softReset rate).respond .none := ⟨_, rfl⟩
  have hrate : rate = t.sampleRate := by rw [ht, State.respond_sampleRate, State.softReset_sampleRate]
  refine ⟨t, ht ▸ exec_softReset hi, hrate.symm, ?_, ?_, fun hz => exec_softReset_of_softReset ht (.inr rfl)⟩
  · rw [exec_softReset_of_softReset ht (.inl ⟨rfl, hrate⟩), ← hrate]
  · rw [exec_softReset_of_softReset ht (.inr rfl), ← hrate]

end Sys2Proof.Machine
end

section
/-! When an enabled timer's overflow first shows (R189): the ticks of a RUN add up to one, whose count steps reach the first
overflow, and the time short of it is a whole number of shell ticks. -/

namespace Sys2Proof

/-- Both rates (D8) are whole numbers of shell ticks of 80 microseconds. -/
theorem Config.timerRate_onGrid (i : TimerId) : ∃ r : ℤ, (Config.timerRate i : Rat) = 80 * r := by
  cases i
  · exact ⟨1, by norm_num [Config.timerRate]⟩
  · exact ⟨4, by norm_num [Config.timerRate]⟩

end Sys2Proof

namespace Sys2Proof.Machine

/-! ### The first overflow -/

/-- A loop runs at least `j` times exactly when its accumulator holds `j` steps. -/
theorem le_loopPasses_iff {x step : Rat} (hx : 0 ≤ x) (hs : 0 < step) (j : ℤ) :
    j ≤ loopPasses x step ↔ j * step ≤ x := by
  rw [loopPasses, Int.natCast_floor_eq_floor (div_nonneg hx hs.le), Int.le_floor, le_div_iff₀ hs]

section
variable {t : Timer} (he : t.enabled = true) (hf : t.elapsed = false)
include he hf

/-- From counter `c` the flag shows after 256 - c count steps, and not before (R98). -/
theorem Timer.iterate_count_elapsed_iff (n : Nat) :
    (Timer.count^[n] t).elapsed = true ↔ 256 - t.counter.toNat ≤ n := by
  by_cases hn : n < 256 - t.counter.toNat
  · rw [Timer.iterate_count_of_lt he hn]
    simp only [hf, Bool.false_eq_true, false_iff, not_le, hn]
  · obtain ⟨k, rfl⟩ := Nat.exists_eq_add_of_le (not_lt.1 hn)
    rw [(Timer.iterate_count_past_overflow he k).1]
    simp

/-- A tick shows the flag exactly when the prescaler reaches the microseconds of 256 - c count steps. -/
theorem Timer.tick_elapsed_iff {e : Rat} (hr : 0 < t.rate) (h : 0 ≤ t.acc + e) :
    (Timer.tick e t).elapsed = true ↔ (256 - (t.counter.toNat : Rat)) * t.rate ≤ t.acc + e := by
  have hsteps := le_loopPasses_iff h (Nat.cast_pos.2 hr : (0 : Rat) < t.rate) (256 - t.counter.toNat)
  push_cast at hsteps
  rw [← hsteps, Timer.tick_eq hr h, Timer.iterate_count_setAcc, Timer.iterate_count_elapsed_iff he hf]
  omega

end

/-! ### Ticks add up -/

theorem Timer.tick_tick {t : Timer} {a b : Rat} (hr : 0 < t.rate) (ha : 0 ≤ t.acc + a) (hb : 0 ≤ b) :
    Timer.tick b (Timer.tick a t) = Timer.tick (a + b) t := by
  have hrate : (Timer.tick a t).rate = t.rate := (Timer.onlyTicked_tick a t).rate
  have hacc := Timer.tick_acc hr ha
  have hpos : (0 : Rat) < t.rate := Nat.cast_pos.2 hr
  obtain ⟨hle, -⟩ := loopPasses_spec ha hpos
  have hpasses := loopPasses_sub_add hpos hle hb
  rw [Timer.tick_eq (hrate.symm ▸ hr) (by rw [hacc]; linarith), Timer.iterate_count_setAcc, hrate, hacc,
    Timer.tick_eq hr ha, Timer.tick_eq hr (by linarith), ← add_assoc, ← hpasses]
  simp only [Timer.iterate_count_setAcc, Function.iterate_add_apply, Timer.mk.injEq, true_and, and_true]
  push_cast
  ring

/-- The ticks of a RUN are one tick of all their time. -/
theorem Timer.iterate_tick {t : Timer} {c : Config} {i : TimerId} (ht : t.Inv c i) {e : Rat} (he : 0 ≤ e) (m : Nat) :
    (Timer.tick e)^[m] t = Timer.tick (m * e) t := by
  induction m with
  | zero => simp [Timer.tick_zero ht.rate_pos ht.acc_nonneg ht.acc_lt]
  | succ m ih =>
    have h0 : 0 ≤ t.acc + m * e := add_nonneg ht.acc_nonneg (mul_nonneg m.cast_nonneg he)
    rw [Function.iterate_succ_apply', ih, Timer.tick_tick ht.rate_pos h0 he]
    push_cast
    congr 1
    ring

/-! ### The grid of shell ticks -/

theorem State.Inv.timer {s : State} (hs : s.Inv) (i : TimerId) : (s.timer i).Inv s.cfg i := by
  cases i
  · exact hs.timer1
  · exact hs.timer2

theorem State.PhaseInv.onGrid {s : State} (hp : s.PhaseInv) (hs : s.Inv) (htick : s.cfg.tickUs = 80) (i : TimerId) :
    (s.timer i).OnGrid := by
  obtain ⟨h₁, h₂⟩ := (State.phaseInv_iff_onGrid hs htick).1 hp
  cases i
  · exact h₁
  · exact h₂

/-- Below `rate` the prescaler leaves room for the microseconds of an unfinished shell tick. -/
theorem Timer.OnGrid.acc_add_lt {t : Timer} {c : Config} {i : TimerId} (hg : t.OnGrid) (ht : t.Inv c i) {u : Rat}
    (hu : u < 80) : t.acc + u < Config.timerRate i := by
  obtain ⟨n, hn⟩ := hg
  obtain ⟨r, hr⟩ := Config.timerRate_onGrid i
  have hlt : (n : Rat) < r := by
    have hacc := ht.acc_lt
    rw [ht.rate_eq, hn, hr] at hacc
    linarith
  have hle : (n : Rat) + 1 ≤ r := by exact_mod_cast hlt
  linarith

/-- The whole shell ticks in `x` microseconds bring the prescaler as far as `k` count steps exactly when `x` microseconds do. -/
theorem Timer.OnGrid.mul_rate_le_iff {t : Timer} {c : Config} {i : TimerId} (hg : t.OnGrid) (ht : t.Inv c i) {x : Rat}
    (hx : 0 ≤ x) (k : ℤ) :
    k * (t.rate : Rat) ≤ t.acc + loopPasses x 80 * 80 ↔ k * (t.rate : Rat) ≤ t.acc + x := by
  obtain ⟨n, hn⟩ := hg
  obtain ⟨r, hr⟩ := Config.timerRate_onGrid i
  have hticks : (k : Rat) * r - n ≤ loopPasses x 80 ↔ ((k : Rat) * r - n) * 80 ≤ x := by
    exact_mod_cast le_loopPasses_iff hx (by norm_num : (0 : Rat) < 80) (k * r - n)
  rw [ht.rate_eq, hn, hr]
  constructor
  · intro h
    linarith [hticks.1 (by linarith)]
  · intro h
    linarith [hticks.2 (by linarith)]

/-- Settles O36: RUN's shell ticks are one tick of `m * 80` microseconds, and the threshold lies on their grid. -/
theorem firstOverflowTime : Obligations.FirstOverflowTime := by
  intro s i t hs hp htick ht he hf
  have hi := hs.timer i
  have hg := hp.onGrid hs htick i
  have h0 : 0 ≤ s.usecAcc + t := add_nonneg hs.usecAcc_nonneg ht
  refine ⟨⟨add_nonneg hi.acc_nonneg hs.usecAcc_nonneg, hg.acc_add_lt hi (htick ▸ hs.usecAcc_lt)⟩,
    _, exec_run_of_nonneg ht s, ?_⟩
  have hreached := hg.mul_rate_le_iff hi h0 (256 - (s.timer i).counter.toNat)
  push_cast at hreached
  have htimer : (s.advanceTimers t).timer i = Timer.tick (loopPasses (s.usecAcc + t) 80 * 80) (s.timer i) := by
    rw [State.advanceTimers_eq hs.cfg_valid h0, htick, ← Timer.iterate_tick hi (by norm_num)]
    cases i <;> rfl
  rw [State.sampleCount_timer, htimer, Timer.tick_elapsed_iff he hf hi.rate_pos (add_nonneg hi.acc_nonneg (by positivity)),
    hreached, hi.rate_eq]
  constructor <;> intro h <;> linarith

end Sys2Proof.Machine
end
